-- ==== Sys2Proof/Word.lean ====
section
/-! DEFINITION. The plain value types of the decoder block: the 32-bit word (rule R7, R40), the 5-bit register
field (R7) and the mnemonic string (R12). -/

namespace Sys2Proof

/-- A word: exactly 32 bits, consumed whole (R32, R40). Bit 0 is the least significant bit; LRA's index 0 is bit 31
(R9). -/
abbrev Word := BitVec 32

/-- A 5-bit register field (R7): it names a register of the decoded ISA, not state of the block (R14, R16). -/
abbrev RegIx := BitVec 5

/-- A mnemonic as the tables store it (R12). Which strings are allowed is rule R25(c), `mnemonicOk`. -/
abbrev Mnemonic := String

end Sys2Proof
end

