-- ==== Sys2Proof/Machine/Normalizer.lean ====
section
/-! DEFINITION. The input Normalizer (49_normalizer.md): two pure functions that turn a text token into a word, or an
error. It is outside the CORE block and specified with it (R5, R180). -/

namespace Sys2Proof.Machine

/-- The two error kinds of the system (R187, R201). -/
inductive NormError where
  | invalidHex
  | invalidBinary
deriving DecidableEq, Repr

/-- The numeric code of a Normalizer result where a bus needs one: 0 success, 1 InvalidHex, 2 InvalidBinary (R201,
decision D17, log entry 13). -/
def statusCode : Except NormError Word → Nat
  | .ok _ => 0
  | .error .invalidHex => 1
  | .error .invalidBinary => 2

/-- Hex mode, step 1 (R181): at most one prefix `0x` or `0X` is removed. -/
def stripHexPrefix : List Char → List Char
  | '0' :: 'x' :: rest => rest
  | '0' :: 'X' :: rest => rest
  | token => token

/-- Hex mode, padding (R182): `0` on the left up to 8 characters; 8 or more characters are left as they are. -/
def padHex (cs : List Char) : List Char := List.replicate (8 - cs.length) '0' ++ cs

/-- The value of a hex digit `0`-`9`, `a`-`f`, `A`-`F` (R182); no other character has one. -/
def hexDigitValue (c : Char) : Option Nat :=
  let n := c.toNat
  if '0'.toNat ≤ n ∧ n ≤ '9'.toNat then some (n - '0'.toNat)
  else if 'a'.toNat ≤ n ∧ n ≤ 'f'.toNat then some (n - 'a'.toNat + 10)
  else if 'A'.toNat ≤ n ∧ n ≤ 'F'.toNat then some (n - 'A'.toNat + 10)
  else none

/-- The value of a binary digit `0` or `1` (R183). -/
def binaryDigitValue (c : Char) : Option Nat :=
  if c = '0' then some 0 else if c = '1' then some 1 else none

/-- The digit reader of the hex mode and of the binary mode: one function, told which digits are valid and the base. -/
inductive Radix where
  | hex
  | binary
deriving DecidableEq, Repr

/-- The base of a mode: 16 (R182) or 2 (R183). -/
def radixBase : Radix → Nat
  | .hex => 16
  | .binary => 2

/-- The value of one character in a mode. -/
def radixDigit : Radix → Char → Option Nat
  | .hex, c => hexDigitValue c
  | .binary, c => binaryDigitValue c

/-- The value of a digit string, most significant character first, on top of the value `acc` read so far; none as soon
as a character is no digit of the mode (R182, R183). -/
def readDigits (radix : Radix) : Nat → List Char → Option Nat
  | acc, [] => some acc
  | acc, c :: rest =>
    match radixDigit radix c with
    | some d => readDigits radix (acc * radixBase radix + d) rest
    | none => none

/-- `normalize_hex` (R180 to R182, R184 to R186): strip one prefix, pad, and read exactly 8 hex digits. A remainder of
more than 8 characters is refused even when its leading digits are zero (R184); an empty one is zero (R185). -/
def normalizeHex (token : String) : Except NormError Word :=
  let digits := padHex (stripHexPrefix token.toList)
  if digits.length = 8 then
    match readDigits .hex 0 digits with
    | some n => .ok (BitVec.ofNat 32 n)
    | none => .error .invalidHex
  else .error .invalidHex

/-- `normalize_binary` (R180, R183 to R186): an unsigned binary number, right-aligned. A value of 2^32 or more is refused,
leading zeros are not (R184); the empty token has no value (R185). -/
def normalizeBinary (token : String) : Except NormError Word :=
  if token.toList = [] then .error .invalidBinary
  else
    match readDigits .binary 0 token.toList with
    | some n => if n < 2 ^ 32 then .ok (BitVec.ofNat 32 n) else .error .invalidBinary
    | none => .error .invalidBinary

end Sys2Proof.Machine
end

