-- ==== Sys2Proof/Config.lean ====
section
/-! DEFINITION. The types of the block's parameters: the entries of the two opcode tables (R22, R23), which are the
open parameters FIXED_SHAMT_TABLE and PRIMARY_TABLE (R8), and the unobservable parameter DECODE_LATENCY (R226). The
tables' default contents stand in Machine/Tables.lean. -/

namespace Sys2Proof

/-- The format tag of a primary-table entry (R23). FixedShamt is no tag: it is the format of every entry of the
fixed-shamt table (R22). -/
inductive Format where
  | r | d | i | im | b | cb
deriving DecidableEq, Repr

/-- One entry of the fixed-shamt table FS (R22): the 11-bit primary opcode followed by the 6-bit shamt, and the
mnemonic. -/
structure FSEntry where
  key : BitVec 17
  mnemonic : Mnemonic
deriving DecidableEq, Repr

/-- One entry of the primary table PT (R23): a bit-string key of its own length, the mnemonic and the format tag. -/
structure PTEntry where
  len : Nat
  key : BitVec len
  mnemonic : Mnemonic
  format : Format
deriving DecidableEq, Repr

/-- The parameter DECODE_LATENCY (R226, decision D14): how long the decode of a word takes, in a unit the spec does not
name. Finite for every word (it is a natural number), otherwise free, and read by no definition of the model: a decode
is one atomic step. Log entry 14. -/
opaque Config.decodeLatency : Word → Nat

end Sys2Proof
end

