-- ==== Sys2Proof/Machine/Tables.lean ====
section
/-! DEFINITION. The opcode tables: the reference population (R24, R51), lookup (R10), the match/mask form of an entry
(R48) and the well-formedness of a table pair (R25). -/

namespace Sys2Proof

/-- The default of FIXED_SHAMT_TABLE: the 13 entries of 41_fixed_shamt.md R81 to R93 (R24). Keys are opcode11 ++ shamt6.
UNVERIFIED against the source (the spec's decision D5): log entry 1. -/
def referenceFS : List FSEntry :=
  [⟨0b10011011000_011111#17, "MUL"⟩,
   ⟨0b10011010110_000010#17, "SDIV"⟩,
   ⟨0b10011010110_000011#17, "UDIV"⟩,
   ⟨0b00011110001_001010#17, "FADDS"⟩,
   ⟨0b00011110011_001010#17, "FADDD"⟩,
   ⟨0b00011110001_001000#17, "FCMPS"⟩,
   ⟨0b00011110011_001000#17, "FCMPD"⟩,
   ⟨0b00011110001_000110#17, "FDIVS"⟩,
   ⟨0b00011110011_000110#17, "FDIVD"⟩,
   ⟨0b00011110001_000010#17, "FMULS"⟩,
   ⟨0b00011110011_000010#17, "FMULD"⟩,
   ⟨0b00011110001_001110#17, "FSUBS"⟩,
   ⟨0b00011110011_001110#17, "FSUBD"⟩]

/-- The default entries of PRIMARY_TABLE with format R: 42_r_format.md R101 to R113. -/
def referenceR : List PTEntry :=
  [⟨11, 0b10001011000#11, "ADD", .r⟩,
   ⟨11, 0b10101011000#11, "ADDS", .r⟩,
   ⟨11, 0b10001010000#11, "AND", .r⟩,
   ⟨11, 0b11101010000#11, "ANDS", .r⟩,
   ⟨11, 0b11010110000#11, "BR", .r⟩,
   ⟨11, 0b11001010000#11, "EOR", .r⟩,
   ⟨11, 0b11010011011#11, "LSL", .r⟩,
   ⟨11, 0b11010011010#11, "LSR", .r⟩,
   ⟨11, 0b10101010000#11, "ORR", .r⟩,
   ⟨11, 0b11001011000#11, "SUB", .r⟩,
   ⟨11, 0b11101011000#11, "SUBS", .r⟩,
   ⟨11, 0b10011011010#11, "SMULH", .r⟩,
   ⟨11, 0b10011011110#11, "UMULH", .r⟩]

/-- The default entries of PRIMARY_TABLE with format D: 43_d_format.md R121 to R134. -/
def referenceD : List PTEntry :=
  [⟨11, 0b11111000010#11, "LDUR", .d⟩,
   ⟨11, 0b00111000010#11, "LDURB", .d⟩,
   ⟨11, 0b01111000010#11, "LDURH", .d⟩,
   ⟨11, 0b10111000100#11, "LDURSW", .d⟩,
   ⟨11, 0b11001000010#11, "LDXR", .d⟩,
   ⟨11, 0b11111000000#11, "STUR", .d⟩,
   ⟨11, 0b00111000000#11, "STURB", .d⟩,
   ⟨11, 0b01111000000#11, "STURH", .d⟩,
   ⟨11, 0b10111000000#11, "STURW", .d⟩,
   ⟨11, 0b11001000000#11, "STXR", .d⟩,
   ⟨11, 0b10111100010#11, "LDURS", .d⟩,
   ⟨11, 0b11111100010#11, "LDURD", .d⟩,
   ⟨11, 0b10111100000#11, "STURS", .d⟩,
   ⟨11, 0b11111100000#11, "STURD", .d⟩]

/-- The default entries of PRIMARY_TABLE with format I: 44_i_format.md R141 to R148. -/
def referenceI : List PTEntry :=
  [⟨10, 0b1001000100#10, "ADDI", .i⟩,
   ⟨10, 0b1011000100#10, "ADDIS", .i⟩,
   ⟨10, 0b1001001000#10, "ANDI", .i⟩,
   ⟨10, 0b1111001000#10, "ANDIS", .i⟩,
   ⟨10, 0b1101001000#10, "EORI", .i⟩,
   ⟨10, 0b1011001000#10, "ORRI", .i⟩,
   ⟨10, 0b1101000100#10, "SUBI", .i⟩,
   ⟨10, 0b1111000100#10, "SUBIS", .i⟩]

/-- The default entries of PRIMARY_TABLE with format IM: 45_im_format.md R151, R152. -/
def referenceIM : List PTEntry :=
  [⟨9, 0b110100101#9, "MOVZ", .im⟩,
   ⟨9, 0b111100101#9, "MOVK", .im⟩]

/-- The default entries of PRIMARY_TABLE with format B: 46_b_format.md R161, R162. -/
def referenceB : List PTEntry :=
  [⟨6, 0b000101#6, "B", .b⟩,
   ⟨6, 0b100101#6, "BL", .b⟩]

/-- The default entries of PRIMARY_TABLE with format CB: 47_cb_format.md R171 to R173. -/
def referenceCB : List PTEntry :=
  [⟨8, 0b01010100#8, "B.COND", .cb⟩,
   ⟨8, 0b10110100#8, "CBZ", .cb⟩,
   ⟨8, 0b10110101#8, "CBNZ", .cb⟩]

/-- The default of PRIMARY_TABLE: 42 entries (R24). Only the keys of ADD and ADDI are attested by the source: log
entry 1. -/
def referencePT : List PTEntry :=
  referenceR ++ referenceD ++ referenceI ++ referenceIM ++ referenceB ++ referenceCB

/-- `lookup(FS, k)` (R10): the mnemonic of the entry whose key is k. -/
def lookupFS (fs : List FSEntry) (k : BitVec 17) : Option Mnemonic :=
  (fs.find? fun e => e.key == k).map (·.mnemonic)

/-- `lookup(PT, k)` (R10, R61): only entries whose key has k's length are considered. -/
def lookupPT (pt : List PTEntry) {n : Nat} (k : BitVec n) : Option (Mnemonic × Format) :=
  (pt.find? fun e => e.len == n && e.key.toNat == k.toNat).map fun e => (e.mnemonic, e.format)

/-- A fixed-shamt entry in match/mask form (R48, step 1): the mask `0xFFE0FC00`. -/
def fsMask : Word := 0xFFE0FC00#32

/-- The match value of a fixed-shamt entry (R48): its key at bits 31..21 and 15..10, every other bit 0. -/
def FSEntry.pattern (e : FSEntry) : Word :=
  ((e.key >>> 6).setWidth 32 <<< 21) ||| ((e.key &&& 0x3F#17).setWidth 32 <<< 10)

/-- The mask of a primary entry (R48): ones at the key's positions, the top `len` bits of the word. -/
def PTEntry.mask (e : PTEntry) : Word := (BitVec.allOnes 32) <<< (32 - e.len)

/-- The match value of a primary entry (R48): its key at the top of the word, every other bit 0. -/
def PTEntry.pattern (e : PTEntry) : Word := e.key.setWidth 32 <<< (32 - e.len)

/-- A word matches a fixed-shamt entry: `(w & mask) == match` (R48). -/
def FSEntry.hits (e : FSEntry) (w : Word) : Bool := (w &&& fsMask) == e.pattern

/-- A word matches a primary entry: `(w & mask) == match` (R48). -/
def PTEntry.hits (e : PTEntry) (w : Word) : Bool := (w &&& e.mask) == e.pattern

/-- A word is known to a table pair when it matches one of its entries; otherwise it is an unknown word (R12, R52). -/
def isKnownWord (fs : List FSEntry) (pt : List PTEntry) (w : Word) : Bool :=
  fs.any (·.hits w) || pt.any (·.hits w)

/-- The key length that each format's probe uses (R25(b), R48). -/
def Format.keyLength : Format → Nat
  | .r => 11
  | .d => 11
  | .i => 10
  | .im => 9
  | .b => 6
  | .cb => 8

/-- The characters a mnemonic is made of (R25(c)): upper-case ASCII letters, digits and the full stop. -/
def isMnemonicChar (c : Char) : Bool :=
  ('A'.toNat ≤ c.toNat && c.toNat ≤ 'Z'.toNat) || ('0'.toNat ≤ c.toNat && c.toNat ≤ '9'.toNat) || c == '.'

/-- Check (c) of R25: the mnemonic is not empty and made of the allowed characters. -/
def mnemonicOk (m : Mnemonic) : Bool := !m.toList.isEmpty && m.toList.all isMnemonicChar

/-- A primary key as a bit string: its length and its value. Two keys of different lengths are different bit strings. -/
def PTEntry.bitString (e : PTEntry) : Nat × Nat := (e.len, e.key.toNat)

/-- Check (a) of R25: within each table, keys are unique. -/
def keysUnique (fs : List FSEntry) (pt : List PTEntry) : Bool :=
  decide (fs.map (·.key)).Nodup && decide (pt.map (·.bitString)).Nodup

/-- Check (b) of R25: every primary entry's key has the length its format's probe uses. -/
def keyLengthsOk (pt : List PTEntry) : Bool := pt.all fun e => e.len == e.format.keyLength

/-- Check (c) of R25 on both tables. -/
def mnemonicsOk (fs : List FSEntry) (pt : List PTEntry) : Bool :=
  fs.all (fun e => mnemonicOk e.mnemonic) && pt.all (fun e => mnemonicOk e.mnemonic)

/-- R25: a table pair is well-formed when checks (a), (b) and (c) hold. A pair that fails any is refused (R202). -/
def tablesWf (fs : List FSEntry) (pt : List PTEntry) : Bool :=
  keysUnique fs pt && keyLengthsOk pt && mnemonicsOk fs pt

end Sys2Proof
end

