-- ==== Sys2Proof/Syntax.lean ====
section
/-! DEFINITION. What a decoded word is: the record the demultiplexer hands the formatter (R79), for any tables, and the
instruction of the reference population (one constructor per row of the opcode table). Fields are the raw extracted
bits of R41 to R47; the operands' values are computed from them in Machine/Operands.lean. -/

namespace Sys2Proof

/-- The internal result record of R79: `Known(format, mnemonic, fields)`, one constructor per format, or `Unknown(w)`.
The mnemonic comes from the table, so a record can name an entry of any table pair. -/
inductive Record where
  | fixedShamt (mn : Mnemonic) (rd rn rm : RegIx)
  | r (mn : Mnemonic) (rd rn rm : RegIx) (shamt : BitVec 6)
  | d (mn : Mnemonic) (rt rn : RegIx) (imm : BitVec 9)
  | i (mn : Mnemonic) (rd rn : RegIx) (imm : BitVec 12)
  | im (mn : Mnemonic) (rd : RegIx) (hw : BitVec 2) (imm : BitVec 16)
  | b (mn : Mnemonic) (disp : BitVec 26)
  | cb (mn : Mnemonic) (rt : RegIx) (disp : BitVec 19)
  | unknown (w : Word)
deriving DecidableEq, Repr

/-- The instructions: one constructor per row of the opcode table (R51), with the operand fields of its format in the
order the text shows them. `word` is the fallback row: the whole of a word that matches no entry (R69). -/
inductive Instr where
  /-- R81 -/
  | mul (rd rn rm : RegIx)
  /-- R82 -/
  | sdiv (rd rn rm : RegIx)
  /-- R83 -/
  | udiv (rd rn rm : RegIx)
  /-- R84 -/
  | fadds (rd rn rm : RegIx)
  /-- R85 -/
  | faddd (rd rn rm : RegIx)
  /-- R86 -/
  | fcmps (rd rn rm : RegIx)
  /-- R87 -/
  | fcmpd (rd rn rm : RegIx)
  /-- R88 -/
  | fdivs (rd rn rm : RegIx)
  /-- R89 -/
  | fdivd (rd rn rm : RegIx)
  /-- R90 -/
  | fmuls (rd rn rm : RegIx)
  /-- R91 -/
  | fmuld (rd rn rm : RegIx)
  /-- R92 -/
  | fsubs (rd rn rm : RegIx)
  /-- R93 -/
  | fsubd (rd rn rm : RegIx)
  /-- R101 -/
  | add (rd rn rm : RegIx) (shamt : BitVec 6)
  /-- R102 -/
  | adds (rd rn rm : RegIx) (shamt : BitVec 6)
  /-- R103 -/
  | and (rd rn rm : RegIx) (shamt : BitVec 6)
  /-- R104 -/
  | ands (rd rn rm : RegIx) (shamt : BitVec 6)
  /-- R105 -/
  | br (rd rn rm : RegIx) (shamt : BitVec 6)
  /-- R106 -/
  | eor (rd rn rm : RegIx) (shamt : BitVec 6)
  /-- R107 -/
  | lsl (rd rn rm : RegIx) (shamt : BitVec 6)
  /-- R108 -/
  | lsr (rd rn rm : RegIx) (shamt : BitVec 6)
  /-- R109 -/
  | orr (rd rn rm : RegIx) (shamt : BitVec 6)
  /-- R110 -/
  | sub (rd rn rm : RegIx) (shamt : BitVec 6)
  /-- R111 -/
  | subs (rd rn rm : RegIx) (shamt : BitVec 6)
  /-- R112 -/
  | smulh (rd rn rm : RegIx) (shamt : BitVec 6)
  /-- R113 -/
  | umulh (rd rn rm : RegIx) (shamt : BitVec 6)
  /-- R121 -/
  | ldur (rt rn : RegIx) (imm : BitVec 9)
  /-- R122 -/
  | ldurb (rt rn : RegIx) (imm : BitVec 9)
  /-- R123 -/
  | ldurh (rt rn : RegIx) (imm : BitVec 9)
  /-- R124 -/
  | ldursw (rt rn : RegIx) (imm : BitVec 9)
  /-- R125 -/
  | ldxr (rt rn : RegIx) (imm : BitVec 9)
  /-- R126 -/
  | stur (rt rn : RegIx) (imm : BitVec 9)
  /-- R127 -/
  | sturb (rt rn : RegIx) (imm : BitVec 9)
  /-- R128 -/
  | sturh (rt rn : RegIx) (imm : BitVec 9)
  /-- R129 -/
  | sturw (rt rn : RegIx) (imm : BitVec 9)
  /-- R130 -/
  | stxr (rt rn : RegIx) (imm : BitVec 9)
  /-- R131 -/
  | ldurs (rt rn : RegIx) (imm : BitVec 9)
  /-- R132 -/
  | ldurd (rt rn : RegIx) (imm : BitVec 9)
  /-- R133 -/
  | sturs (rt rn : RegIx) (imm : BitVec 9)
  /-- R134 -/
  | sturd (rt rn : RegIx) (imm : BitVec 9)
  /-- R141 -/
  | addi (rd rn : RegIx) (imm : BitVec 12)
  /-- R142 -/
  | addis (rd rn : RegIx) (imm : BitVec 12)
  /-- R143 -/
  | andi (rd rn : RegIx) (imm : BitVec 12)
  /-- R144 -/
  | andis (rd rn : RegIx) (imm : BitVec 12)
  /-- R145 -/
  | eori (rd rn : RegIx) (imm : BitVec 12)
  /-- R146 -/
  | orri (rd rn : RegIx) (imm : BitVec 12)
  /-- R147 -/
  | subi (rd rn : RegIx) (imm : BitVec 12)
  /-- R148 -/
  | subis (rd rn : RegIx) (imm : BitVec 12)
  /-- R151 -/
  | movz (rd : RegIx) (hw : BitVec 2) (imm : BitVec 16)
  /-- R152 -/
  | movk (rd : RegIx) (hw : BitVec 2) (imm : BitVec 16)
  /-- R161 -/
  | b (disp : BitVec 26)
  /-- R162 -/
  | bl (disp : BitVec 26)
  /-- R171 -/
  | bCond (rt : RegIx) (disp : BitVec 19)
  /-- R172 -/
  | cbz (rt : RegIx) (disp : BitVec 19)
  /-- R173 -/
  | cbnz (rt : RegIx) (disp : BitVec 19)
  /-- R69: an unknown word, shown whole. -/
  | word (w : Word)
deriving DecidableEq, Repr

end Sys2Proof
end

