-- ==== Sys2Proof/WellFormed.lean ====
section
/-! DEFINITION. Which instructions are well-formed. Every operand field has exactly its encoding's width (R41 to R47), so
the only check left is that the fallback holds an unknown word. -/

namespace Sys2Proof

/-- An instruction is well-formed when some word decodes to it. Operands are exact by their types; `word w` is
well-formed only where w matches no entry of the reference population (R52, R69: the fallback is reached when no probe
matched), in the match/mask form of R48. -/
def Instr.wellFormed : Instr → Bool
  | .word w => !isKnownWord referenceFS referencePT w
  | .mul _ _ _ | .sdiv _ _ _ | .udiv _ _ _ | .fadds _ _ _ | .faddd _ _ _ | .fcmps _ _ _ | .fcmpd _ _ _
  | .fdivs _ _ _ | .fdivd _ _ _ | .fmuls _ _ _ | .fmuld _ _ _ | .fsubs _ _ _ | .fsubd _ _ _ | .add _ _ _ _
  | .adds _ _ _ _ | .and _ _ _ _ | .ands _ _ _ _ | .br _ _ _ _ | .eor _ _ _ _ | .lsl _ _ _ _ | .lsr _ _ _ _
  | .orr _ _ _ _ | .sub _ _ _ _ | .subs _ _ _ _ | .smulh _ _ _ _ | .umulh _ _ _ _ | .ldur _ _ _ | .ldurb _ _ _
  | .ldurh _ _ _ | .ldursw _ _ _ | .ldxr _ _ _ | .stur _ _ _ | .sturb _ _ _ | .sturh _ _ _ | .sturw _ _ _
  | .stxr _ _ _ | .ldurs _ _ _ | .ldurd _ _ _ | .sturs _ _ _ | .sturd _ _ _ | .addi _ _ _ | .addis _ _ _
  | .andi _ _ _ | .andis _ _ _ | .eori _ _ _ | .orri _ _ _ | .subi _ _ _ | .subis _ _ _ | .movz _ _ _
  | .movk _ _ _ | .b _ | .bl _ | .bCond _ _ | .cbz _ _ | .cbnz _ _ => true

end Sys2Proof
end

