-- ==== Sys2Proof/Decode.lean ====
section
/-! DEFINITION. The decoder: the probe cascade over a table pair (R61), which cuts each format's fields out of the word
(R73), the instruction that a record of the reference population is, and the encoder of a well-formed instruction. The
decoder is total: every word decodes (R60), and a word that matches no entry is the instruction `word` (R69). -/

namespace Sys2Proof

/- Field extraction (R73): a field m[i:j) of LRA is `w[31-i : 32-j]` (R9), cut out by its lowest bit and its width. -/

/-- Rd, called Rt in formats D and CB: `m[27:32)` = `w[4:0]` (R41 to R45, R47). -/
def rdField (w : Word) : RegIx := w.extractLsb' 0 5
/-- Rn: `m[22:27)` = `w[9:5]`, in format D too (R43, R56, log entry 8). -/
def rnField (w : Word) : RegIx := w.extractLsb' 5 5
/-- Rm: `m[11:16)` = `w[20:16]` (R41, R42). -/
def rmField (w : Word) : RegIx := w.extractLsb' 16 5
/-- shamt: `m[16:22)` = `w[15:10]` (R41, R42). -/
def shamtField (w : Word) : BitVec 6 := w.extractLsb' 10 6
/-- The D-format address offset: `m[11:20)` = `w[20:12]` (R43). -/
def imm9Field (w : Word) : BitVec 9 := w.extractLsb' 12 9
/-- The I-format immediate: `m[10:22)` = `w[21:10]` (R44). -/
def imm12Field (w : Word) : BitVec 12 := w.extractLsb' 10 12
/-- hw: `m[9:11)` = `w[22:21]` (R45). -/
def hwField (w : Word) : BitVec 2 := w.extractLsb' 21 2
/-- The IM-format immediate: `m[11:27)` = `w[20:5]` (R45). -/
def imm16Field (w : Word) : BitVec 16 := w.extractLsb' 5 16
/-- The B-format raw displacement: `m[6:32)` = `w[25:0]` (R46). -/
def disp26Field (w : Word) : BitVec 26 := w.extractLsb' 0 26
/-- The CB-format raw displacement: `m[8:27)` = `w[23:5]` (R47). -/
def disp19Field (w : Word) : BitVec 19 := w.extractLsb' 5 19

/-- The 11-bit key `w[31:21]` (R48, step 2). -/
def key11 (w : Word) : BitVec 11 := w.extractLsb' 21 11
/-- The 10-bit key `w[31:22]` (R48, step 3). -/
def key10 (w : Word) : BitVec 10 := w.extractLsb' 22 10
/-- The 9-bit key `w[31:23]` (R48, step 4). -/
def key9 (w : Word) : BitVec 9 := w.extractLsb' 23 9
/-- The 6-bit key `w[31:26]` (R48, step 5). -/
def key6 (w : Word) : BitVec 6 := w.extractLsb' 26 6
/-- The 8-bit key `w[31:24]` (R48, step 6). -/
def key8 (w : Word) : BitVec 8 := w.extractLsb' 24 8
/-- The fixed-shamt key `w[31:21] ++ w[15:10]` (R63; 90_conflicts.md C1: not `bits[0:17)`, log entry 6). -/
def fsKey (w : Word) : BitVec 17 := key11 w ++ shamtField w

/- The six probes (R61): each cuts one key, looks it up in one table, and on a hit cuts the format's fields. -/

/-- Step 1, the fixed-shamt probe (R61, R63, R80). -/
def probeFixedShamt (fs : List FSEntry) (w : Word) : Option Record :=
  match lookupFS fs (fsKey w) with
  | some mn => some (.fixedShamt mn (rdField w) (rnField w) (rmField w))
  | none => none

/-- Step 2, the 11-bit probe: the entry's tag, R or D, chooses the format (R66). -/
def probe11 (pt : List PTEntry) (w : Word) : Option Record :=
  match lookupPT pt (key11 w) with
  | some (mn, .r) => some (.r mn (rdField w) (rnField w) (rmField w) (shamtField w))
  | some (mn, .d) => some (.d mn (rdField w) (rnField w) (imm9Field w))
  | some (_, .i) | some (_, .im) | some (_, .b) | some (_, .cb) | none => none

/-- Step 3, the 10-bit probe: format I (R61, R66). -/
def probe10 (pt : List PTEntry) (w : Word) : Option Record :=
  match lookupPT pt (key10 w) with
  | some (mn, .i) => some (.i mn (rdField w) (rnField w) (imm12Field w))
  | some (_, .r) | some (_, .d) | some (_, .im) | some (_, .b) | some (_, .cb) | none => none

/-- Step 4, the 9-bit probe: format IM (R61, R66). -/
def probe9 (pt : List PTEntry) (w : Word) : Option Record :=
  match lookupPT pt (key9 w) with
  | some (mn, .im) => some (.im mn (rdField w) (hwField w) (imm16Field w))
  | some (_, .r) | some (_, .d) | some (_, .i) | some (_, .b) | some (_, .cb) | none => none

/-- Step 5, the 6-bit probe: format B. It precedes the 8-bit probe (R64, 90_conflicts.md C7). -/
def probe6 (pt : List PTEntry) (w : Word) : Option Record :=
  match lookupPT pt (key6 w) with
  | some (mn, .b) => some (.b mn (disp26Field w))
  | some (_, .r) | some (_, .d) | some (_, .i) | some (_, .im) | some (_, .cb) | none => none

/-- Step 6, the 8-bit probe: format CB (R61, R66). -/
def probe8 (pt : List PTEntry) (w : Word) : Option Record :=
  match lookupPT pt (key8 w) with
  | some (mn, .cb) => some (.cb mn (rdField w) (disp19Field w))
  | some (_, .r) | some (_, .d) | some (_, .i) | some (_, .im) | some (_, .b) | none => none

/-- The cascade (R61): the first probe that hits gives the record and later probes are not consulted; when every probe
misses the word is unknown (R69). Total on every word (R60). -/
def classify (fs : List FSEntry) (pt : List PTEntry) (w : Word) : Record :=
  match probeFixedShamt fs w with
  | some rec => rec
  | none => match probe11 pt w with
    | some rec => rec
    | none => match probe10 pt w with
      | some rec => rec
      | none => match probe9 pt w with
        | some rec => rec
        | none => match probe6 pt w with
          | some rec => rec
          | none => match probe8 pt w with
            | some rec => rec
            | none => .unknown w

/-- The six probe outcomes of a hardware realisation that evaluates all lookups at once (R65), in step order. -/
def probeOutcomes (fs : List FSEntry) (pt : List PTEntry) (w : Word) : List (Option Record) :=
  [probeFixedShamt fs w, probe11 pt w, probe10 pt w, probe9 pt w, probe6 pt w, probe8 pt w]

/-- A fixed priority encoder (R65): the position of the first raised line, none when no line is raised. -/
def priorityEncode : List Bool → Option Nat
  | [] => none
  | true :: _ => some 0
  | false :: lines => (priorityEncode lines).map (· + 1)

/-- The parallel realisation of R65: evaluate all six lookups, encode which hit with the highest priority, and select
that outcome; step 7 when none hit. -/
def classifyParallel (fs : List FSEntry) (pt : List PTEntry) (w : Word) : Record :=
  match priorityEncode ((probeOutcomes fs pt w).map Option.isSome) with
  | some n => (((probeOutcomes fs pt w)[n]?).join).getD (.unknown w)
  | none => .unknown w

/- The reference population's instructions as records, and back. -/

/-- The record of an instruction (R79): its format, its mnemonic and its fields. -/
def Instr.toRecord : Instr → Record
  | .mul rd rn rm => .fixedShamt "MUL" rd rn rm
  | .sdiv rd rn rm => .fixedShamt "SDIV" rd rn rm
  | .udiv rd rn rm => .fixedShamt "UDIV" rd rn rm
  | .fadds rd rn rm => .fixedShamt "FADDS" rd rn rm
  | .faddd rd rn rm => .fixedShamt "FADDD" rd rn rm
  | .fcmps rd rn rm => .fixedShamt "FCMPS" rd rn rm
  | .fcmpd rd rn rm => .fixedShamt "FCMPD" rd rn rm
  | .fdivs rd rn rm => .fixedShamt "FDIVS" rd rn rm
  | .fdivd rd rn rm => .fixedShamt "FDIVD" rd rn rm
  | .fmuls rd rn rm => .fixedShamt "FMULS" rd rn rm
  | .fmuld rd rn rm => .fixedShamt "FMULD" rd rn rm
  | .fsubs rd rn rm => .fixedShamt "FSUBS" rd rn rm
  | .fsubd rd rn rm => .fixedShamt "FSUBD" rd rn rm
  | .add rd rn rm shamt => .r "ADD" rd rn rm shamt
  | .adds rd rn rm shamt => .r "ADDS" rd rn rm shamt
  | .and rd rn rm shamt => .r "AND" rd rn rm shamt
  | .ands rd rn rm shamt => .r "ANDS" rd rn rm shamt
  | .br rd rn rm shamt => .r "BR" rd rn rm shamt
  | .eor rd rn rm shamt => .r "EOR" rd rn rm shamt
  | .lsl rd rn rm shamt => .r "LSL" rd rn rm shamt
  | .lsr rd rn rm shamt => .r "LSR" rd rn rm shamt
  | .orr rd rn rm shamt => .r "ORR" rd rn rm shamt
  | .sub rd rn rm shamt => .r "SUB" rd rn rm shamt
  | .subs rd rn rm shamt => .r "SUBS" rd rn rm shamt
  | .smulh rd rn rm shamt => .r "SMULH" rd rn rm shamt
  | .umulh rd rn rm shamt => .r "UMULH" rd rn rm shamt
  | .ldur rt rn imm => .d "LDUR" rt rn imm
  | .ldurb rt rn imm => .d "LDURB" rt rn imm
  | .ldurh rt rn imm => .d "LDURH" rt rn imm
  | .ldursw rt rn imm => .d "LDURSW" rt rn imm
  | .ldxr rt rn imm => .d "LDXR" rt rn imm
  | .stur rt rn imm => .d "STUR" rt rn imm
  | .sturb rt rn imm => .d "STURB" rt rn imm
  | .sturh rt rn imm => .d "STURH" rt rn imm
  | .sturw rt rn imm => .d "STURW" rt rn imm
  | .stxr rt rn imm => .d "STXR" rt rn imm
  | .ldurs rt rn imm => .d "LDURS" rt rn imm
  | .ldurd rt rn imm => .d "LDURD" rt rn imm
  | .sturs rt rn imm => .d "STURS" rt rn imm
  | .sturd rt rn imm => .d "STURD" rt rn imm
  | .addi rd rn imm => .i "ADDI" rd rn imm
  | .addis rd rn imm => .i "ADDIS" rd rn imm
  | .andi rd rn imm => .i "ANDI" rd rn imm
  | .andis rd rn imm => .i "ANDIS" rd rn imm
  | .eori rd rn imm => .i "EORI" rd rn imm
  | .orri rd rn imm => .i "ORRI" rd rn imm
  | .subi rd rn imm => .i "SUBI" rd rn imm
  | .subis rd rn imm => .i "SUBIS" rd rn imm
  | .movz rd hw imm => .im "MOVZ" rd hw imm
  | .movk rd hw imm => .im "MOVK" rd hw imm
  | .b disp => .b "B" disp
  | .bl disp => .b "BL" disp
  | .bCond rt disp => .cb "B.COND" rt disp
  | .cbz rt disp => .cb "CBZ" rt disp
  | .cbnz rt disp => .cb "CBNZ" rt disp
  | .word w => .unknown w

/-- The mnemonics of the format-FixedShamt rows and the instructions they name. -/
def fixedShamtNames : List (Mnemonic × (RegIx → RegIx → RegIx → Instr)) :=
  [("MUL", .mul), ("SDIV", .sdiv), ("UDIV", .udiv), ("FADDS", .fadds), ("FADDD", .faddd), ("FCMPS", .fcmps),
   ("FCMPD", .fcmpd), ("FDIVS", .fdivs), ("FDIVD", .fdivd), ("FMULS", .fmuls), ("FMULD", .fmuld),
   ("FSUBS", .fsubs), ("FSUBD", .fsubd)]

/-- The mnemonics of the format-R rows and the instructions they name. -/
def rNames : List (Mnemonic × (RegIx → RegIx → RegIx → BitVec 6 → Instr)) :=
  [("ADD", .add), ("ADDS", .adds), ("AND", .and), ("ANDS", .ands), ("BR", .br), ("EOR", .eor), ("LSL", .lsl),
   ("LSR", .lsr), ("ORR", .orr), ("SUB", .sub), ("SUBS", .subs), ("SMULH", .smulh), ("UMULH", .umulh)]

/-- The mnemonics of the format-D rows and the instructions they name. -/
def dNames : List (Mnemonic × (RegIx → RegIx → BitVec 9 → Instr)) :=
  [("LDUR", .ldur), ("LDURB", .ldurb), ("LDURH", .ldurh), ("LDURSW", .ldursw), ("LDXR", .ldxr),
   ("STUR", .stur), ("STURB", .sturb), ("STURH", .sturh), ("STURW", .sturw), ("STXR", .stxr),
   ("LDURS", .ldurs), ("LDURD", .ldurd), ("STURS", .sturs), ("STURD", .sturd)]

/-- The mnemonics of the format-I rows and the instructions they name. -/
def iNames : List (Mnemonic × (RegIx → RegIx → BitVec 12 → Instr)) :=
  [("ADDI", .addi), ("ADDIS", .addis), ("ANDI", .andi), ("ANDIS", .andis), ("EORI", .eori), ("ORRI", .orri),
   ("SUBI", .subi), ("SUBIS", .subis)]

/-- The mnemonics of the format-IM rows and the instructions they name. -/
def imNames : List (Mnemonic × (RegIx → BitVec 2 → BitVec 16 → Instr)) :=
  [("MOVZ", .movz), ("MOVK", .movk)]

/-- The mnemonics of the format-B rows and the instructions they name. -/
def bNames : List (Mnemonic × (BitVec 26 → Instr)) :=
  [("B", .b), ("BL", .bl)]

/-- The mnemonics of the format-CB rows and the instructions they name. -/
def cbNames : List (Mnemonic × (RegIx → BitVec 19 → Instr)) :=
  [("B.COND", .bCond), ("CBZ", .cbz), ("CBNZ", .cbnz)]

/-- The instruction a record stands for: none for a record whose mnemonic and format are no row of the reference
population (a custom table can hold such an entry, R24; the formatter renders its record as it is, log entry 18). -/
def Instr.ofRecord : Record → Option Instr
  | .fixedShamt mn rd rn rm => (fixedShamtNames.lookup mn).map fun c => c rd rn rm
  | .r mn rd rn rm shamt => (rNames.lookup mn).map fun c => c rd rn rm shamt
  | .d mn rt rn imm => (dNames.lookup mn).map fun c => c rt rn imm
  | .i mn rd rn imm => (iNames.lookup mn).map fun c => c rd rn imm
  | .im mn rd hw imm => (imNames.lookup mn).map fun c => c rd hw imm
  | .b mn disp => (bNames.lookup mn).map fun c => c disp
  | .cb mn rt disp => (cbNames.lookup mn).map fun c => c rt disp
  | .unknown w => some (.word w)

/-- The decoder of the reference population (R61, R24): every word is an instruction, an unknown word the fallback. -/
def decode (w : Word) : Instr := (Instr.ofRecord (classify referenceFS referencePT w)).getD (.word w)

/- The encoder: the word of an instruction, from the field positions of R41 to R47 and the keys of R51. -/

/-- Format FixedShamt (R42): opcode, Rm, shamt, Rn, Rd; the key gives the opcode and the shamt. -/
def encodeFixedShamt (key : BitVec 17) (rd rn rm : RegIx) : Word :=
  (key.extractLsb' 6 11 ++ rm ++ key.extractLsb' 0 6 ++ rn ++ rd : BitVec 32)

/-- Format R (R41): opcode, Rm, shamt, Rn, Rd. -/
def encodeR (key : BitVec 11) (rd rn rm : RegIx) (shamt : BitVec 6) : Word :=
  (key ++ rm ++ shamt ++ rn ++ rd : BitVec 32)

/-- Format D (R43): opcode, imm, two ignored bits, Rn, Rt. The ignored bits `w[11:10]` are no part of the instruction;
the encoder writes them 0 (log entry 9). -/
def encodeD (key : BitVec 11) (rt rn : RegIx) (imm : BitVec 9) : Word :=
  (key ++ imm ++ 0b00#2 ++ rn ++ rt : BitVec 32)

/-- Format I (R44): opcode, imm, Rn, Rd. -/
def encodeI (key : BitVec 10) (rd rn : RegIx) (imm : BitVec 12) : Word :=
  (key ++ imm ++ rn ++ rd : BitVec 32)

/-- Format IM (R45): opcode, hw, imm, Rd. -/
def encodeIM (key : BitVec 9) (rd : RegIx) (hw : BitVec 2) (imm : BitVec 16) : Word :=
  (key ++ hw ++ imm ++ rd : BitVec 32)

/-- Format B (R46): opcode, disp_raw. -/
def encodeB (key : BitVec 6) (disp : BitVec 26) : Word := (key ++ disp : BitVec 32)

/-- Format CB (R47): opcode, disp_raw, Rt. -/
def encodeCB (key : BitVec 8) (rt : RegIx) (disp : BitVec 19) : Word :=
  (key ++ disp ++ rt : BitVec 32)

/-- The word of an instruction. Each key is written out from the instruction's own rule, apart from the tables the
decoder looks up. -/
def encode : Instr → Word
  | .mul rd rn rm => encodeFixedShamt 0b10011011000_011111#17 rd rn rm
  | .sdiv rd rn rm => encodeFixedShamt 0b10011010110_000010#17 rd rn rm
  | .udiv rd rn rm => encodeFixedShamt 0b10011010110_000011#17 rd rn rm
  | .fadds rd rn rm => encodeFixedShamt 0b00011110001_001010#17 rd rn rm
  | .faddd rd rn rm => encodeFixedShamt 0b00011110011_001010#17 rd rn rm
  | .fcmps rd rn rm => encodeFixedShamt 0b00011110001_001000#17 rd rn rm
  | .fcmpd rd rn rm => encodeFixedShamt 0b00011110011_001000#17 rd rn rm
  | .fdivs rd rn rm => encodeFixedShamt 0b00011110001_000110#17 rd rn rm
  | .fdivd rd rn rm => encodeFixedShamt 0b00011110011_000110#17 rd rn rm
  | .fmuls rd rn rm => encodeFixedShamt 0b00011110001_000010#17 rd rn rm
  | .fmuld rd rn rm => encodeFixedShamt 0b00011110011_000010#17 rd rn rm
  | .fsubs rd rn rm => encodeFixedShamt 0b00011110001_001110#17 rd rn rm
  | .fsubd rd rn rm => encodeFixedShamt 0b00011110011_001110#17 rd rn rm
  | .add rd rn rm shamt => encodeR 0b10001011000#11 rd rn rm shamt
  | .adds rd rn rm shamt => encodeR 0b10101011000#11 rd rn rm shamt
  | .and rd rn rm shamt => encodeR 0b10001010000#11 rd rn rm shamt
  | .ands rd rn rm shamt => encodeR 0b11101010000#11 rd rn rm shamt
  | .br rd rn rm shamt => encodeR 0b11010110000#11 rd rn rm shamt
  | .eor rd rn rm shamt => encodeR 0b11001010000#11 rd rn rm shamt
  | .lsl rd rn rm shamt => encodeR 0b11010011011#11 rd rn rm shamt
  | .lsr rd rn rm shamt => encodeR 0b11010011010#11 rd rn rm shamt
  | .orr rd rn rm shamt => encodeR 0b10101010000#11 rd rn rm shamt
  | .sub rd rn rm shamt => encodeR 0b11001011000#11 rd rn rm shamt
  | .subs rd rn rm shamt => encodeR 0b11101011000#11 rd rn rm shamt
  | .smulh rd rn rm shamt => encodeR 0b10011011010#11 rd rn rm shamt
  | .umulh rd rn rm shamt => encodeR 0b10011011110#11 rd rn rm shamt
  | .ldur rt rn imm => encodeD 0b11111000010#11 rt rn imm
  | .ldurb rt rn imm => encodeD 0b00111000010#11 rt rn imm
  | .ldurh rt rn imm => encodeD 0b01111000010#11 rt rn imm
  | .ldursw rt rn imm => encodeD 0b10111000100#11 rt rn imm
  | .ldxr rt rn imm => encodeD 0b11001000010#11 rt rn imm
  | .stur rt rn imm => encodeD 0b11111000000#11 rt rn imm
  | .sturb rt rn imm => encodeD 0b00111000000#11 rt rn imm
  | .sturh rt rn imm => encodeD 0b01111000000#11 rt rn imm
  | .sturw rt rn imm => encodeD 0b10111000000#11 rt rn imm
  | .stxr rt rn imm => encodeD 0b11001000000#11 rt rn imm
  | .ldurs rt rn imm => encodeD 0b10111100010#11 rt rn imm
  | .ldurd rt rn imm => encodeD 0b11111100010#11 rt rn imm
  | .sturs rt rn imm => encodeD 0b10111100000#11 rt rn imm
  | .sturd rt rn imm => encodeD 0b11111100000#11 rt rn imm
  | .addi rd rn imm => encodeI 0b1001000100#10 rd rn imm
  | .addis rd rn imm => encodeI 0b1011000100#10 rd rn imm
  | .andi rd rn imm => encodeI 0b1001001000#10 rd rn imm
  | .andis rd rn imm => encodeI 0b1111001000#10 rd rn imm
  | .eori rd rn imm => encodeI 0b1101001000#10 rd rn imm
  | .orri rd rn imm => encodeI 0b1011001000#10 rd rn imm
  | .subi rd rn imm => encodeI 0b1101000100#10 rd rn imm
  | .subis rd rn imm => encodeI 0b1111000100#10 rd rn imm
  | .movz rd hw imm => encodeIM 0b110100101#9 rd hw imm
  | .movk rd hw imm => encodeIM 0b111100101#9 rd hw imm
  | .b disp => encodeB 0b000101#6 disp
  | .bl disp => encodeB 0b100101#6 disp
  | .bCond rt disp => encodeCB 0b01010100#8 rt disp
  | .cbz rt disp => encodeCB 0b10110100#8 rt disp
  | .cbnz rt disp => encodeCB 0b10110101#8 rt disp
  | .word w => w

/-- The 32-bit value that the opcode table's numbering gives of a value of `nbits` bits: bit 0 is the least significant
bit. The block takes the value as it is; no byte order applies (R33). A value of any other length than 32 is no word of
the block (R32, R40), and the spec does not say what becomes of one. DESIGN CHOICE (log entry 24): a shorter value is
widened with zeros on its most significant side, of a longer one the low 32 bits are kept, and the bits of `w` from
`nbits` on are dropped, none of these with a refusal. -/
def tableWord (nbits w : Nat) : Word := BitVec.ofNat 32 (w % 2 ^ nbits)

/-- The instruction the decoder reads from an instruction whose low `nbits` bits are w. A value of any other length than
32 is no word of the block (R32, R40). DESIGN CHOICE (log entry 24): of those a longer one is refused (none), a shorter
one is accepted and decoded as the word `tableWord` widens it to. -/
def decodeTableWord (nbits w : Nat) : Option Instr :=
  if nbits ≤ 32 then some (decode (tableWord nbits w)) else none

end Sys2Proof
end

