-- ==== Sys2Proof/Machine/Operands.lean ====
section
/-! DEFINITION. The values of the operands (R50, R73 to R77) and the formatter: its primitives (R70 to R72) and one
template per format (R54). -/

namespace Sys2Proof.Machine

/-- `sext_N(v)` (R10, R74): `v - 2^N` if bit N-1 of v is 1, else v, as an integer. -/
def sext {n : Nat} (v : BitVec n) : Int :=
  if v.getLsbD (n - 1) then (v.toNat : Int) - 2 ^ n else v.toNat

/-- The B-format displacement in bytes: `sext_26(w[25:0]) * 4` (R75; 90_conflicts.md C2, log entry 7). -/
def dispB (raw : BitVec 26) : Int := sext raw * 4

/-- The CB-format displacement in bytes: `sext_19(w[23:5]) * 4` (R75; 90_conflicts.md C2, log entry 7). -/
def dispCB (raw : BitVec 19) : Int := sext raw * 4

/-- The IM-format value `imm << (16 * hw)` on unbounded integers (R76): no truncation and no overflow check. -/
def imValue (hw : BitVec 2) (imm : BitVec 16) : Nat := imm.toNat * 2 ^ (16 * hw.toNat)

/-- `dec(n)` for a natural number (R71): base 10, no leading zero, `0` for zero. -/
def decNat (n : Nat) : String := n.repr

/-- `dec(n)` for an integer (R71): for a negative number `-` and then `dec(-n)`; never a `+`. -/
def dec (n : Int) : String := if n < 0 then "-" ++ decNat (-n).toNat else decNat n.toNat

/-- `reg(n)` (R70): `X` and the index in decimal, for every index; 31 is `X31` (R16). -/
def reg (n : RegIx) : String := "X" ++ decNat n.toNat

/-- The upper-case hexadecimal digit of a value below 16 (R72). -/
def hexDigit (d : BitVec 4) : Char :=
  if d.toNat < 10 then Char.ofNat ('0'.toNat + d.toNat) else Char.ofNat ('A'.toNat + (d.toNat - 10))

/-- The eight digits of `hex8(w)`, most significant first: `w[31:28]` down to `w[3:0]` (R33, R72). -/
def hex8Digits (w : Word) : List Char :=
  [hexDigit (w.extractLsb' 28 4), hexDigit (w.extractLsb' 24 4), hexDigit (w.extractLsb' 20 4),
   hexDigit (w.extractLsb' 16 4), hexDigit (w.extractLsb' 12 4), hexDigit (w.extractLsb' 8 4),
   hexDigit (w.extractLsb' 4 4), hexDigit (w.extractLsb' 0 4)]

/-- `hex8(w)` (R72): exactly 8 upper-case hexadecimal digits, zero-padded. -/
def hex8 (w : Word) : String := String.ofList (hex8Digits w)

/-- FALLBACK_GAP (R8, R69; 90_conflicts.md C4, log entry 10): four spaces. -/
def fallbackGap : String := "    "

/-- `render_FixedShamt` (R80): three registers and never a shift suffix. -/
def renderFixedShamt (mn : Mnemonic) (rd rn rm : RegIx) : String :=
  mn ++ " " ++ reg rd ++ ", " ++ reg rn ++ ", " ++ reg rm

/-- The shift suffix of format R (R100): nothing for shamt 0, else always spelled LSL. -/
def shiftSuffix (shamt : BitVec 6) : String :=
  if shamt = 0 then "" else ", LSL #" ++ decNat shamt.toNat

/-- `render_R` (R100): three registers for every entry, then the shift suffix. -/
def renderR (mn : Mnemonic) (rd rn rm : RegIx) (shamt : BitVec 6) : String :=
  mn ++ " " ++ reg rd ++ ", " ++ reg rn ++ ", " ++ reg rm ++ shiftSuffix shamt

/-- `render_D` (R120): the offset is unsigned, 0 to 511, and never dropped. -/
def renderD (mn : Mnemonic) (rt rn : RegIx) (imm : BitVec 9) : String :=
  mn ++ " " ++ reg rt ++ ", [" ++ reg rn ++ ", #" ++ decNat imm.toNat ++ "]"

/-- `render_I` (R140): the 12 raw bits as an unsigned number, for the logical immediates too. -/
def renderI (mn : Mnemonic) (rd rn : RegIx) (imm : BitVec 12) : String :=
  mn ++ " " ++ reg rd ++ ", " ++ reg rn ++ ", #" ++ decNat imm.toNat

/-- `render_IM` (R150): the shift is folded into the value. -/
def renderIM (mn : Mnemonic) (rd : RegIx) (hw : BitVec 2) (imm : BitVec 16) : String :=
  mn ++ " " ++ reg rd ++ ", #" ++ decNat (imValue hw imm)

/-- `render_B` (R160): the signed byte displacement, not a target address (R17). -/
def renderB (mn : Mnemonic) (disp : BitVec 26) : String := mn ++ " #" ++ dec (dispB disp)

/-- `render_CB` (R170): the register field and the signed byte displacement; B.COND's condition field is shown as a
register too. -/
def renderCB (mn : Mnemonic) (rt : RegIx) (disp : BitVec 19) : String :=
  mn ++ " " ++ reg rt ++ ", #" ++ dec (dispCB disp)

/-- The fallback line (R69). -/
def renderUnknown (w : Word) : String := ".word 0x" ++ hex8 w ++ fallbackGap ++ "// unknown"

/-- The formatter on the demultiplexer's record (R79): the template of the record's format (R54). -/
def render : Record → String
  | .fixedShamt mn rd rn rm => renderFixedShamt mn rd rn rm
  | .r mn rd rn rm shamt => renderR mn rd rn rm shamt
  | .d mn rt rn imm => renderD mn rt rn imm
  | .i mn rd rn imm => renderI mn rd rn imm
  | .im mn rd hw imm => renderIM mn rd hw imm
  | .b mn disp => renderB mn disp
  | .cb mn rt disp => renderCB mn rt disp
  | .unknown w => renderUnknown w

/-- The CORE's function `decode : BitVec 32 → String` over a table pair (R60, R61): a function of the word and the two
tables alone (R20, R78). -/
def decodeText (fs : List FSEntry) (pt : List PTEntry) (w : Word) : String := render (classify fs pt w)

end Sys2Proof.Machine
end

