-- ==== Sys2Proof/Machine/State.lean ====
section
/-! DEFINITION. The machine's state: the two opcode tables, which are all the state the spec gives the block (R15), and
the two ends of its interface as data: requests not yet served, and responses given (R28). -/

namespace Sys2Proof.Machine

/-- One request at the boundary: a word for the CORE (R28), or a text token for the Normalizer in the mode its caller
chose (R180, R189). -/
inductive Request where
  | word (w : Word)
  | hexToken (token : String)
  | binaryToken (token : String)
deriving DecidableEq, Repr

/-- One response: the rendered line without a line terminator (R28), or one of the Normalizer's two errors (R187). An
error carries no other datum and stops nothing: it is a value the caller sees. -/
inductive Response where
  | line (text : String)
  | invalidHex
  | invalidBinary
deriving DecidableEq, Repr

/-- The state. `fs` and `pt` are the tables FS and PT, constant state of the block (R15, R22, R23, R27). `requests` and
`responses` are the model's own record of the interface: the requests the caller has issued and the block has not yet
served, oldest first, and the responses it has given, oldest first (log entry 3). The block has no register, program
counter, flag, control register or memory (R16 to R20, R31). -/
structure State where
  fs : List FSEntry
  pt : List PTEntry
  requests : List Request
  responses : List Response
deriving DecidableEq, Repr

/-- The faults: none. The block raises no exception for any word, and no word makes it stall or hang (R200); the
Normalizer's errors are responses (R187). Leaving the type empty is safe only because the spec rules every fault out. -/
inductive Fault where
deriving DecidableEq, Repr

/-- Why the model refuses to go on. -/
inductive Refusal where
  /-- Raised by exec for an instruction that has no meaning yet. Safe: the model stops. No instruction is left so. -/
  | notModelled (mnemonic : String)
  /-- Raised by `State.powerOn` and by `step` for a table pair that fails a check of R25: such a parameter is refused
  when the block is built (R202), so no block is in such a state. Safe: the model stops. -/
  | illFormedTables
deriving DecidableEq, Repr

/-- The machine right after power-on with the default parameters (R29, R220): both tables complete, nothing else. No
request has been issued and no response given. -/
def State.reset : State :=
  { fs := referenceFS, pt := referencePT, requests := [], responses := [] }

end Sys2Proof.Machine
end

