-- ==== Sys2Proof/Machine/Ops.lean ====
section
/-! DEFINITION. The operations the meanings and the step share: building a block (R202), issuing and taking a request,
and giving a response. There is no taking of an exception and no return from one: the block has no trap entry (R204). -/

namespace Sys2Proof.Machine

/-- Building a block from its table parameters, and power-on (R25, R202, R222): an ill-formed pair is refused; a
well-formed one is the block's only state, with no request issued and no response given (R29, R220). -/
def State.powerOn (fs : List FSEntry) (pt : List PTEntry) : Host.Outcome State Fault Refusal :=
  if tablesWf fs pt then .next { fs := fs, pt := pt, requests := [], responses := [] }
  else .refused .illFormedTables

/-- The state with one more response given, after those given before. -/
def State.respond (s : State) (r : Response) : State := { s with responses := s.responses ++ [r] }

/-- The state with the given requests left to serve. -/
def State.withRequests (s : State) (qs : List Request) : State := { s with requests := qs }

/-- `emit(t)` (R10): the block's output for this request is the line t. It writes nothing else (R35). -/
def emitLine (t : String) (s : State) : Host.Outcome State Fault Refusal := .next (s.respond (.line t))

/-- The response to a token the Normalizer rejects (R187). The request is done and the next one can be served: the
recommended policy skip-and-continue (log entry 5). -/
def emitError (e : NormError) (s : State) : Host.Outcome State Fault Refusal :=
  match e with
  | .invalidHex => .next (s.respond .invalidHex)
  | .invalidBinary => .next (s.respond .invalidBinary)

/-- The word of a request (R28, R189): a word request's own word, a token's through the Normalizer in its mode. -/
def requestWord : Request → Except NormError Word
  | .word w => .ok w
  | .hexToken token => normalizeHex token
  | .binaryToken token => normalizeBinary token

end Sys2Proof.Machine
end

