-- ==== Sys2Proof/Machine/BFormat.lean ====
section
/-! DEFINITION. The meanings of the B family (46_b_format.md, cascade step 5): each renders its line by the family rule R160 and
writes nothing else (no flag, no register, no memory: R16 to R18, R35). -/

namespace Sys2Proof.Machine

/-- R161: `B`. -/
def execB (disp : BitVec 26) (s : State) : Host.Outcome State Fault Refusal :=
  emitLine (renderB "B" disp) s

/-- R162: `BL`. -/
def execBl (disp : BitVec 26) (s : State) : Host.Outcome State Fault Refusal :=
  emitLine (renderB "BL" disp) s

end Sys2Proof.Machine
end

