-- ==== Sys2Proof/Machine/CbFormat.lean ====
section
/-! DEFINITION. The meanings of the CB family (47_cb_format.md, cascade step 6): each renders its line by the family rule R170 and
writes nothing else (no flag, no register, no memory: R16 to R18, R35). -/

namespace Sys2Proof.Machine

/-- R171: `B.COND`. -/
def execBCond (rt : RegIx) (disp : BitVec 19) (s : State) : Host.Outcome State Fault Refusal :=
  emitLine (renderCB "B.COND" rt disp) s

/-- R172: `CBZ`. -/
def execCbz (rt : RegIx) (disp : BitVec 19) (s : State) : Host.Outcome State Fault Refusal :=
  emitLine (renderCB "CBZ" rt disp) s

/-- R173: `CBNZ`. -/
def execCbnz (rt : RegIx) (disp : BitVec 19) (s : State) : Host.Outcome State Fault Refusal :=
  emitLine (renderCB "CBNZ" rt disp) s

end Sys2Proof.Machine
end

