-- ==== Sys2Proof/Machine/DFormat.lean ====
section
/-! DEFINITION. The meanings of the D family (43_d_format.md, cascade step 2, tag D): each renders its line by the family rule R120 and
writes nothing else (no flag, no register, no memory: R16 to R18, R35). -/

namespace Sys2Proof.Machine

/-- R121: `LDUR`. -/
def execLdur (rt rn : RegIx) (imm : BitVec 9) (s : State) : Host.Outcome State Fault Refusal :=
  emitLine (renderD "LDUR" rt rn imm) s

/-- R122: `LDURB`. -/
def execLdurb (rt rn : RegIx) (imm : BitVec 9) (s : State) : Host.Outcome State Fault Refusal :=
  emitLine (renderD "LDURB" rt rn imm) s

/-- R123: `LDURH`. -/
def execLdurh (rt rn : RegIx) (imm : BitVec 9) (s : State) : Host.Outcome State Fault Refusal :=
  emitLine (renderD "LDURH" rt rn imm) s

/-- R124: `LDURSW`. -/
def execLdursw (rt rn : RegIx) (imm : BitVec 9) (s : State) : Host.Outcome State Fault Refusal :=
  emitLine (renderD "LDURSW" rt rn imm) s

/-- R125: `LDXR`. -/
def execLdxr (rt rn : RegIx) (imm : BitVec 9) (s : State) : Host.Outcome State Fault Refusal :=
  emitLine (renderD "LDXR" rt rn imm) s

/-- R126: `STUR`. -/
def execStur (rt rn : RegIx) (imm : BitVec 9) (s : State) : Host.Outcome State Fault Refusal :=
  emitLine (renderD "STUR" rt rn imm) s

/-- R127: `STURB`. -/
def execSturb (rt rn : RegIx) (imm : BitVec 9) (s : State) : Host.Outcome State Fault Refusal :=
  emitLine (renderD "STURB" rt rn imm) s

/-- R128: `STURH`. -/
def execSturh (rt rn : RegIx) (imm : BitVec 9) (s : State) : Host.Outcome State Fault Refusal :=
  emitLine (renderD "STURH" rt rn imm) s

/-- R129: `STURW`. -/
def execSturw (rt rn : RegIx) (imm : BitVec 9) (s : State) : Host.Outcome State Fault Refusal :=
  emitLine (renderD "STURW" rt rn imm) s

/-- R130: `STXR`. -/
def execStxr (rt rn : RegIx) (imm : BitVec 9) (s : State) : Host.Outcome State Fault Refusal :=
  emitLine (renderD "STXR" rt rn imm) s

/-- R131: `LDURS`. -/
def execLdurs (rt rn : RegIx) (imm : BitVec 9) (s : State) : Host.Outcome State Fault Refusal :=
  emitLine (renderD "LDURS" rt rn imm) s

/-- R132: `LDURD`. -/
def execLdurd (rt rn : RegIx) (imm : BitVec 9) (s : State) : Host.Outcome State Fault Refusal :=
  emitLine (renderD "LDURD" rt rn imm) s

/-- R133: `STURS`. -/
def execSturs (rt rn : RegIx) (imm : BitVec 9) (s : State) : Host.Outcome State Fault Refusal :=
  emitLine (renderD "STURS" rt rn imm) s

/-- R134: `STURD`. -/
def execSturd (rt rn : RegIx) (imm : BitVec 9) (s : State) : Host.Outcome State Fault Refusal :=
  emitLine (renderD "STURD" rt rn imm) s

end Sys2Proof.Machine
end

