-- ==== Sys2Proof/Machine/Fallback.lean ====
section
/-! DEFINITION. The fallback (40_decoder_core.md R69, cascade step 7): an unknown word is a value, not an error (R52). -/

namespace Sys2Proof.Machine

/-- R69: an unknown word renders the `.word` line. -/
def execWord (w : Word) (s : State) : Host.Outcome State Fault Refusal :=
  emitLine (renderUnknown w) s

end Sys2Proof.Machine
end

