-- ==== Sys2Proof/Machine/FixedShamt.lean ====
section
/-! DEFINITION. The meanings of the FixedShamt family (41_fixed_shamt.md, cascade step 1): each renders its line by the family rule R80 and
writes nothing else (no flag, no register, no memory: R16 to R18, R35). -/

namespace Sys2Proof.Machine

/-- R81: `MUL`. -/
def execMul (rd rn rm : RegIx) (s : State) : Host.Outcome State Fault Refusal :=
  emitLine (renderFixedShamt "MUL" rd rn rm) s

/-- R82: `SDIV`. -/
def execSdiv (rd rn rm : RegIx) (s : State) : Host.Outcome State Fault Refusal :=
  emitLine (renderFixedShamt "SDIV" rd rn rm) s

/-- R83: `UDIV`. -/
def execUdiv (rd rn rm : RegIx) (s : State) : Host.Outcome State Fault Refusal :=
  emitLine (renderFixedShamt "UDIV" rd rn rm) s

/-- R84: `FADDS`. -/
def execFadds (rd rn rm : RegIx) (s : State) : Host.Outcome State Fault Refusal :=
  emitLine (renderFixedShamt "FADDS" rd rn rm) s

/-- R85: `FADDD`. -/
def execFaddd (rd rn rm : RegIx) (s : State) : Host.Outcome State Fault Refusal :=
  emitLine (renderFixedShamt "FADDD" rd rn rm) s

/-- R86: `FCMPS`. -/
def execFcmps (rd rn rm : RegIx) (s : State) : Host.Outcome State Fault Refusal :=
  emitLine (renderFixedShamt "FCMPS" rd rn rm) s

/-- R87: `FCMPD`. -/
def execFcmpd (rd rn rm : RegIx) (s : State) : Host.Outcome State Fault Refusal :=
  emitLine (renderFixedShamt "FCMPD" rd rn rm) s

/-- R88: `FDIVS`. -/
def execFdivs (rd rn rm : RegIx) (s : State) : Host.Outcome State Fault Refusal :=
  emitLine (renderFixedShamt "FDIVS" rd rn rm) s

/-- R89: `FDIVD`. -/
def execFdivd (rd rn rm : RegIx) (s : State) : Host.Outcome State Fault Refusal :=
  emitLine (renderFixedShamt "FDIVD" rd rn rm) s

/-- R90: `FMULS`. -/
def execFmuls (rd rn rm : RegIx) (s : State) : Host.Outcome State Fault Refusal :=
  emitLine (renderFixedShamt "FMULS" rd rn rm) s

/-- R91: `FMULD`. -/
def execFmuld (rd rn rm : RegIx) (s : State) : Host.Outcome State Fault Refusal :=
  emitLine (renderFixedShamt "FMULD" rd rn rm) s

/-- R92: `FSUBS`. -/
def execFsubs (rd rn rm : RegIx) (s : State) : Host.Outcome State Fault Refusal :=
  emitLine (renderFixedShamt "FSUBS" rd rn rm) s

/-- R93: `FSUBD`. -/
def execFsubd (rd rn rm : RegIx) (s : State) : Host.Outcome State Fault Refusal :=
  emitLine (renderFixedShamt "FSUBD" rd rn rm) s

end Sys2Proof.Machine
end

