-- ==== Sys2Proof/Machine/IFormat.lean ====
section
/-! DEFINITION. The meanings of the I family (44_i_format.md, cascade step 3): each renders its line by the family rule R140 and
writes nothing else (no flag, no register, no memory: R16 to R18, R35). -/

namespace Sys2Proof.Machine

/-- R141: `ADDI`. -/
def execAddi (rd rn : RegIx) (imm : BitVec 12) (s : State) : Host.Outcome State Fault Refusal :=
  emitLine (renderI "ADDI" rd rn imm) s

/-- R142: `ADDIS`. -/
def execAddis (rd rn : RegIx) (imm : BitVec 12) (s : State) : Host.Outcome State Fault Refusal :=
  emitLine (renderI "ADDIS" rd rn imm) s

/-- R143: `ANDI`. -/
def execAndi (rd rn : RegIx) (imm : BitVec 12) (s : State) : Host.Outcome State Fault Refusal :=
  emitLine (renderI "ANDI" rd rn imm) s

/-- R144: `ANDIS`. -/
def execAndis (rd rn : RegIx) (imm : BitVec 12) (s : State) : Host.Outcome State Fault Refusal :=
  emitLine (renderI "ANDIS" rd rn imm) s

/-- R145: `EORI`. -/
def execEori (rd rn : RegIx) (imm : BitVec 12) (s : State) : Host.Outcome State Fault Refusal :=
  emitLine (renderI "EORI" rd rn imm) s

/-- R146: `ORRI`. -/
def execOrri (rd rn : RegIx) (imm : BitVec 12) (s : State) : Host.Outcome State Fault Refusal :=
  emitLine (renderI "ORRI" rd rn imm) s

/-- R147: `SUBI`. -/
def execSubi (rd rn : RegIx) (imm : BitVec 12) (s : State) : Host.Outcome State Fault Refusal :=
  emitLine (renderI "SUBI" rd rn imm) s

/-- R148: `SUBIS`. -/
def execSubis (rd rn : RegIx) (imm : BitVec 12) (s : State) : Host.Outcome State Fault Refusal :=
  emitLine (renderI "SUBIS" rd rn imm) s

end Sys2Proof.Machine
end

