-- ==== Sys2Proof/Machine/ImFormat.lean ====
section
/-! DEFINITION. The meanings of the IM family (45_im_format.md, cascade step 4): each renders its line by the family rule R150 and
writes nothing else (no flag, no register, no memory: R16 to R18, R35). -/

namespace Sys2Proof.Machine

/-- R151: `MOVZ`. -/
def execMovz (rd : RegIx) (hw : BitVec 2) (imm : BitVec 16) (s : State) : Host.Outcome State Fault Refusal :=
  emitLine (renderIM "MOVZ" rd hw imm) s

/-- R152: `MOVK`. -/
def execMovk (rd : RegIx) (hw : BitVec 2) (imm : BitVec 16) (s : State) : Host.Outcome State Fault Refusal :=
  emitLine (renderIM "MOVK" rd hw imm) s

end Sys2Proof.Machine
end

