-- ==== Sys2Proof/Machine/RFormat.lean ====
section
/-! DEFINITION. The meanings of the R family (42_r_format.md, cascade step 2, tag R): each renders its line by the family rule R100 and
writes nothing else (no flag, no register, no memory: R16 to R18, R35). -/

namespace Sys2Proof.Machine

/-- R101: `ADD`. -/
def execAdd (rd rn rm : RegIx) (shamt : BitVec 6) (s : State) : Host.Outcome State Fault Refusal :=
  emitLine (renderR "ADD" rd rn rm shamt) s

/-- R102: `ADDS`. -/
def execAdds (rd rn rm : RegIx) (shamt : BitVec 6) (s : State) : Host.Outcome State Fault Refusal :=
  emitLine (renderR "ADDS" rd rn rm shamt) s

/-- R103: `AND`. -/
def execAnd (rd rn rm : RegIx) (shamt : BitVec 6) (s : State) : Host.Outcome State Fault Refusal :=
  emitLine (renderR "AND" rd rn rm shamt) s

/-- R104: `ANDS`. -/
def execAnds (rd rn rm : RegIx) (shamt : BitVec 6) (s : State) : Host.Outcome State Fault Refusal :=
  emitLine (renderR "ANDS" rd rn rm shamt) s

/-- R105: `BR`. -/
def execBr (rd rn rm : RegIx) (shamt : BitVec 6) (s : State) : Host.Outcome State Fault Refusal :=
  emitLine (renderR "BR" rd rn rm shamt) s

/-- R106: `EOR`. -/
def execEor (rd rn rm : RegIx) (shamt : BitVec 6) (s : State) : Host.Outcome State Fault Refusal :=
  emitLine (renderR "EOR" rd rn rm shamt) s

/-- R107: `LSL`. -/
def execLsl (rd rn rm : RegIx) (shamt : BitVec 6) (s : State) : Host.Outcome State Fault Refusal :=
  emitLine (renderR "LSL" rd rn rm shamt) s

/-- R108: `LSR`. -/
def execLsr (rd rn rm : RegIx) (shamt : BitVec 6) (s : State) : Host.Outcome State Fault Refusal :=
  emitLine (renderR "LSR" rd rn rm shamt) s

/-- R109: `ORR`. -/
def execOrr (rd rn rm : RegIx) (shamt : BitVec 6) (s : State) : Host.Outcome State Fault Refusal :=
  emitLine (renderR "ORR" rd rn rm shamt) s

/-- R110: `SUB`. -/
def execSub (rd rn rm : RegIx) (shamt : BitVec 6) (s : State) : Host.Outcome State Fault Refusal :=
  emitLine (renderR "SUB" rd rn rm shamt) s

/-- R111: `SUBS`. -/
def execSubs (rd rn rm : RegIx) (shamt : BitVec 6) (s : State) : Host.Outcome State Fault Refusal :=
  emitLine (renderR "SUBS" rd rn rm shamt) s

/-- R112: `SMULH`. -/
def execSmulh (rd rn rm : RegIx) (shamt : BitVec 6) (s : State) : Host.Outcome State Fault Refusal :=
  emitLine (renderR "SMULH" rd rn rm shamt) s

/-- R113: `UMULH`. -/
def execUmulh (rd rn rm : RegIx) (shamt : BitVec 6) (s : State) : Host.Outcome State Fault Refusal :=
  emitLine (renderR "UMULH" rd rn rm shamt) s

end Sys2Proof.Machine
end

