-- ==== Sys2Proof/Machine/Dispatch.lean ====
section
/-! DEFINITION. The dispatch: one arm per constructor of Instr, each one call of its meaning. -/

namespace Sys2Proof.Machine
open Sys2Proof

def exec (i : Instr) (s : State) : Host.Outcome State Fault Refusal :=
  match i with
  -- 41_fixed_shamt.md
  | .mul rd rn rm => Sys2Proof.Machine.execMul rd rn rm s
  | .sdiv rd rn rm => Sys2Proof.Machine.execSdiv rd rn rm s
  | .udiv rd rn rm => Sys2Proof.Machine.execUdiv rd rn rm s
  | .fadds rd rn rm => Sys2Proof.Machine.execFadds rd rn rm s
  | .faddd rd rn rm => Sys2Proof.Machine.execFaddd rd rn rm s
  | .fcmps rd rn rm => Sys2Proof.Machine.execFcmps rd rn rm s
  | .fcmpd rd rn rm => Sys2Proof.Machine.execFcmpd rd rn rm s
  | .fdivs rd rn rm => Sys2Proof.Machine.execFdivs rd rn rm s
  | .fdivd rd rn rm => Sys2Proof.Machine.execFdivd rd rn rm s
  | .fmuls rd rn rm => Sys2Proof.Machine.execFmuls rd rn rm s
  | .fmuld rd rn rm => Sys2Proof.Machine.execFmuld rd rn rm s
  | .fsubs rd rn rm => Sys2Proof.Machine.execFsubs rd rn rm s
  | .fsubd rd rn rm => Sys2Proof.Machine.execFsubd rd rn rm s
  -- 42_r_format.md
  | .add rd rn rm shamt => Sys2Proof.Machine.execAdd rd rn rm shamt s
  | .adds rd rn rm shamt => Sys2Proof.Machine.execAdds rd rn rm shamt s
  | .and rd rn rm shamt => Sys2Proof.Machine.execAnd rd rn rm shamt s
  | .ands rd rn rm shamt => Sys2Proof.Machine.execAnds rd rn rm shamt s
  | .br rd rn rm shamt => Sys2Proof.Machine.execBr rd rn rm shamt s
  | .eor rd rn rm shamt => Sys2Proof.Machine.execEor rd rn rm shamt s
  | .lsl rd rn rm shamt => Sys2Proof.Machine.execLsl rd rn rm shamt s
  | .lsr rd rn rm shamt => Sys2Proof.Machine.execLsr rd rn rm shamt s
  | .orr rd rn rm shamt => Sys2Proof.Machine.execOrr rd rn rm shamt s
  | .sub rd rn rm shamt => Sys2Proof.Machine.execSub rd rn rm shamt s
  | .subs rd rn rm shamt => Sys2Proof.Machine.execSubs rd rn rm shamt s
  | .smulh rd rn rm shamt => Sys2Proof.Machine.execSmulh rd rn rm shamt s
  | .umulh rd rn rm shamt => Sys2Proof.Machine.execUmulh rd rn rm shamt s
  -- 43_d_format.md
  | .ldur rt rn imm => Sys2Proof.Machine.execLdur rt rn imm s
  | .ldurb rt rn imm => Sys2Proof.Machine.execLdurb rt rn imm s
  | .ldurh rt rn imm => Sys2Proof.Machine.execLdurh rt rn imm s
  | .ldursw rt rn imm => Sys2Proof.Machine.execLdursw rt rn imm s
  | .ldxr rt rn imm => Sys2Proof.Machine.execLdxr rt rn imm s
  | .stur rt rn imm => Sys2Proof.Machine.execStur rt rn imm s
  | .sturb rt rn imm => Sys2Proof.Machine.execSturb rt rn imm s
  | .sturh rt rn imm => Sys2Proof.Machine.execSturh rt rn imm s
  | .sturw rt rn imm => Sys2Proof.Machine.execSturw rt rn imm s
  | .stxr rt rn imm => Sys2Proof.Machine.execStxr rt rn imm s
  | .ldurs rt rn imm => Sys2Proof.Machine.execLdurs rt rn imm s
  | .ldurd rt rn imm => Sys2Proof.Machine.execLdurd rt rn imm s
  | .sturs rt rn imm => Sys2Proof.Machine.execSturs rt rn imm s
  | .sturd rt rn imm => Sys2Proof.Machine.execSturd rt rn imm s
  -- 44_i_format.md
  | .addi rd rn imm => Sys2Proof.Machine.execAddi rd rn imm s
  | .addis rd rn imm => Sys2Proof.Machine.execAddis rd rn imm s
  | .andi rd rn imm => Sys2Proof.Machine.execAndi rd rn imm s
  | .andis rd rn imm => Sys2Proof.Machine.execAndis rd rn imm s
  | .eori rd rn imm => Sys2Proof.Machine.execEori rd rn imm s
  | .orri rd rn imm => Sys2Proof.Machine.execOrri rd rn imm s
  | .subi rd rn imm => Sys2Proof.Machine.execSubi rd rn imm s
  | .subis rd rn imm => Sys2Proof.Machine.execSubis rd rn imm s
  -- 45_im_format.md
  | .movz rd hw imm => Sys2Proof.Machine.execMovz rd hw imm s
  | .movk rd hw imm => Sys2Proof.Machine.execMovk rd hw imm s
  -- 46_b_format.md
  | .b disp => Sys2Proof.Machine.execB disp s
  | .bl disp => Sys2Proof.Machine.execBl disp s
  -- 47_cb_format.md
  | .bCond rt disp => Sys2Proof.Machine.execBCond rt disp s
  | .cbz rt disp => Sys2Proof.Machine.execCbz rt disp s
  | .cbnz rt disp => Sys2Proof.Machine.execCbnz rt disp s
  -- 40_decoder_core.md R69
  | .word w => Sys2Proof.Machine.execWord w s

end Sys2Proof.Machine
end

