-- ==== Sys2Proof/Machine/Serve.lean ====
section
/-! DEFINITION. Serving one request: the Normalizer where the request is a token (R189), the cascade (R61), and the
meaning of the decoded instruction. Step.lean only calls it. -/

namespace Sys2Proof.Machine

/-- What the formatter does with the demultiplexer's record (R79). A record of the reference population's mnemonics runs
that instruction's meaning; an entry of another table pair has no instruction of its own and is rendered by its format's
template like any other entry (R205, log entry 18). -/
def runRecord (r : Record) (s : State) : Host.Outcome State Fault Refusal :=
  match Instr.ofRecord r with
  | some i => exec i s
  | none => emitLine (render r) s

/-- One decode (R60, R61): classify the word by the block's own tables and run the record. -/
def serveWord (w : Word) (s : State) : Host.Outcome State Fault Refusal :=
  runRecord (classify s.fs s.pt w) s

/-- One request (R28, R189): decode its word, or answer the Normalizer's error. -/
def serve (q : Request) (s : State) : Host.Outcome State Fault Refusal :=
  match requestWord q with
  | .ok w => serveWord w s
  | .error e => emitError e s

/-- The response a request gets from a block with these tables: a function of the request and the tables alone (R37,
R78). The step's definition goes through the instructions' meanings; that it gives this response is a statement. -/
def answer (fs : List FSEntry) (pt : List PTEntry) (q : Request) : Response :=
  match requestWord q with
  | .ok w => .line (decodeText fs pt w)
  | .error .invalidHex => .invalidHex
  | .error .invalidBinary => .invalidBinary

/-- The step of a block whose tables are well-formed: serve the oldest request. With no request there is nothing to do
and the state stays as it is (log entry 4). -/
def serveNext (s : State) : Host.Outcome State Fault Refusal :=
  match s.requests with
  | [] => .next s
  | q :: rest => serve q (s.withRequests rest)

/-- The next request to be served is the word w; everything else is as before. -/
def State.issueFirst (s : State) (w : Word) : State := s.withRequests (.word w :: s.requests)

end Sys2Proof.Machine
end

