-- ==== Sys2Proof/Machine/Step.lean ====
section
/-! DEFINITION. One step of the machine: one request served, as one atomic step (R226). -/

namespace Sys2Proof.Machine

/-- One step. A state whose tables fail a check of R25 is the state of no block, and is refused (R25, R202); otherwise
the oldest request is served. -/
def step (s : State) : Host.Outcome State Fault Refusal :=
  if tablesWf s.fs s.pt then serveNext s else .refused .illFormedTables

/-- The state whose next request is the word with low bits `w`: the block has no program counter and no instruction
memory (R17, R31), so its next instruction is the word of the next request (log entry 15). A value of any
other length than 32 is no word (R32, R40). DESIGN CHOICE (log entry 24): no such value is refused; a shorter one is
issued widened with zeros, and of a longer one the low 32 bits are issued, where `decodeTableWord` gives none. -/
def State.withFetchWord (s : State) (nbits w : Nat) : State := s.issueFirst (tableWord nbits w)

end Sys2Proof.Machine
end

