-- ==== Sys2Proof/Safety.lean ====
section
/-! DEFINITION. What counts as a safe run, and the invariant of a block: the terms the statements use. -/

namespace Sys2Proof.Machine

/-- A printable ASCII character, the space included (R11, decision D11): the output holds no line terminator (R28). -/
def isPrintable (c : Char) : Bool := 0x20 ≤ c.toNat && c.toNat ≤ 0x7E

/-- A line as the block may give it (R28, R60): not empty, and made of printable ASCII characters only. -/
def lineOk (t : String) : Bool := !t.toList.isEmpty && t.toList.all isPrintable

/-- A response as the block may give it: a good line, or one of the Normalizer's errors (R28, R187). -/
def Response.ok : Response → Bool
  | .line t => lineOk t
  | .invalidHex => true
  | .invalidBinary => true

/-- The invariant of a block: its tables are well-formed (R25, R222) and every response it has given is one the
interface allows (R28, R60). -/
def Inv (s : State) : Prop := tablesWf s.fs s.pt = true ∧ ∀ r ∈ s.responses, r.ok = true

/-- A block built from the default parameters (R8, R24). The tables never change, so every later state of such a block
is one too. -/
def State.isReference (s : State) : Prop := s.fs = referenceFS ∧ s.pt = referencePT

/-- The decimal text of the unsigned field `w[lo+len-1:lo]` (R71, R73), by division, apart from the extractor's own
definitions. -/
def fieldText (w : Word) (lo len : Nat) : String := (w.toNat / 2 ^ lo % 2 ^ len).repr

/-- Step serves a request of the word w, on every block of the default parameters, by giving the line t and changing
nothing else: the tables and the responses already given stay, and the other requests are left to serve. -/
def Renders (w : Word) (t : String) : Prop :=
  ∀ (s : State) (rest : List Request), s.isReference → s.requests = .word w :: rest →
    step s = .next { s with requests := rest, responses := s.responses ++ [.line t] }

/-- A safe run: however many steps are taken, the machine neither faults nor refuses (R60, R200). -/
def SafeRun (s : State) : Prop := ∀ n, ∃ t, Sys2Proof.core.run n s = .next t

end Sys2Proof.Machine
end

