-- ==== Sys2Proof/Certificates/Slice0/Obligations.lean ====
section
/-! DEFINITION. The statements for the provers. Each docstring names the rules of spec/ its statement rests on. -/

open Sys2Proof Sys2Proof.Machine

/-- Decode and encode agree: every well-formed instruction is decoded from its encoding (R41, R42, R43, R44, R45, R46,
R47, R51). The encoder is the model's own, log entry 9. -/
def Obligations.DecodeOfEncodeIsTheInstruction : Prop :=
  ∀ i : Instr, i.wellFormed = true → decode (encode i) = i

/-- Every word is recovered from its decoding, but for the two ignored bits of a D-format word (R43, R49).
The encoder is the model's own, log entry 9. -/
def Obligations.EncodeOfDecodeRecoversTheWord : Prop :=
  ∀ w : Word, (decode w).wellFormed = true ∧
    ((∃ mn rt rn imm, (decode w).toRecord = .d mn rt rn imm) → encode (decode w) = w &&& 0xFFFFF3FF#32) ∧
    ((¬ ∃ mn rt rn imm, (decode w).toRecord = .d mn rt rn imm) → encode (decode w) = w)

/-- One word of each family, written out bit by bit, decodes to its instruction (R81, R101, R121, R141, R151, R161,
R171, R69). -/
def Obligations.WrittenOutWordsDecode : Prop :=
  decode 0b10011011000_00011_011111_00010_00001#32 = .mul 1 2 3 ∧
  decode 0b10001011000_00011_000001_00010_00001#32 = .add 1 2 3 1 ∧
  decode 0b11111000010_111111111_00_00010_00001#32 = .ldur 1 2 511 ∧
  decode 0b1001000100_000001100100_00010_00001#32 = .addi 1 2 100 ∧
  decode 0b110100101_11_0000000000000101_11111#32 = .movz 31 3 5 ∧
  decode 0b000101_11111111111111111111111101#32 = .b 0x3FFFFFD ∧
  decode 0b01010100_0000000000000000101_00001#32 = .bCond 1 5 ∧
  decode 0b11010100_00000000000000000000_0001#32 = .word 0xD4000001

/-- In the reference population every word matches at most one entry of the two tables together (R26, R48). -/
def Obligations.EveryWordHitsAtMostOneEntry : Prop :=
  ∀ w : Word, (referenceFS.filter (·.hits w)).length + (referencePT.filter (·.hits w)).length ≤ 1

/-- Under the reference population exactly 291,930,112 words are known (R53). -/
def Obligations.KnownWordsNumber291930112 : Prop :=
  ((Finset.range (2 ^ 32)).filter fun n => isKnownWord referenceFS referencePT (BitVec.ofNat 32 n) = true).card =
      13 * 2 ^ 15 + 27 * 2 ^ 21 + 8 * 2 ^ 22 + 2 * 2 ^ 23 + 2 * 2 ^ 26 + 3 * 2 ^ 24 ∧
    13 * 2 ^ 15 + 27 * 2 ^ 21 + 8 * 2 ^ 22 + 2 * 2 ^ 23 + 2 * 2 ^ 26 + 3 * 2 ^ 24 = 291930112 ∧
    isKnownWord referenceFS referencePT 0x00000000#32 = false ∧
    isKnownWord referenceFS referencePT 0xFFFFFFFF#32 = false

/-- A word satisfies an entry's match/mask form exactly when the key cut from it is the entry's key (R48). -/
def Obligations.MatchAndMaskSayTheKey : Prop :=
  (∀ (e : FSEntry) (w : Word), e.hits w = true ↔
      w.toNat / 2 ^ 21 * 2 ^ 6 + w.toNat / 2 ^ 10 % 2 ^ 6 = e.key.toNat) ∧ fsMask = 0xFFE0FC00#32 ∧
  ∀ (e : PTEntry) (w : Word),
    (∀ row ∈ [(11, 0xFFE00000#32), (10, 0xFFC00000#32), (9, 0xFF800000#32), (6, 0xFC000000#32), (8, 0xFF000000#32)],
      e.len = row.1 → e.mask = row.2) ∧
    (e.len ∈ [11, 10, 9, 6, 8] → (e.hits w = true ↔ w.toNat / 2 ^ (32 - e.len) = e.key.toNat))

/-- The reference tables hold exactly the entries that R51 lists, each once, with its key, mnemonic and format: 13 and 42,
by format 13, 14, 8, 2, 2, 3, and they are well-formed (R24, R25, R51). That these entries are the tables' default is
the spec's decision D5, UNVERIFIED against the source: log entry 1. -/
def Obligations.ReferenceTablesHoldTheListedEntries : Prop :=
  (referenceFS.map fun e => (e.key.toNat / 2 ^ 6, e.key.toNat % 2 ^ 6, e.mnemonic)).Perm [
    (0b10011011000, 0b011111, "MUL"), (0b10011010110, 0b000010, "SDIV"), (0b10011010110, 0b000011, "UDIV"),
    (0b00011110001, 0b001010, "FADDS"), (0b00011110001, 0b001000, "FCMPS"), (0b00011110001, 0b000110, "FDIVS"),
    (0b00011110001, 0b000010, "FMULS"), (0b00011110001, 0b001110, "FSUBS"), (0b00011110011, 0b001010, "FADDD"),
    (0b00011110011, 0b001000, "FCMPD"), (0b00011110011, 0b000110, "FDIVD"), (0b00011110011, 0b000010, "FMULD"),
    (0b00011110011, 0b001110, "FSUBD")] ∧
  ((referencePT.filter (·.format = .r)).map fun e => (e.len, e.key.toNat, e.mnemonic)).Perm [
    (11, 0b10001011000, "ADD"), (11, 0b10101011000, "ADDS"), (11, 0b10001010000, "AND"), (11, 0b11101010000, "ANDS"),
    (11, 0b11010110000, "BR"), (11, 0b11001010000, "EOR"), (11, 0b11010011011, "LSL"), (11, 0b11010011010, "LSR"),
    (11, 0b10101010000, "ORR"), (11, 0b11001011000, "SUB"), (11, 0b11101011000, "SUBS"),
    (11, 0b10011011010, "SMULH"), (11, 0b10011011110, "UMULH")] ∧
  ((referencePT.filter (·.format = .d)).map fun e => (e.len, e.key.toNat, e.mnemonic)).Perm [
    (11, 0b11111000010, "LDUR"), (11, 0b00111000010, "LDURB"), (11, 0b01111000010, "LDURH"),
    (11, 0b10111000100, "LDURSW"), (11, 0b11001000010, "LDXR"), (11, 0b11111000000, "STUR"),
    (11, 0b00111000000, "STURB"), (11, 0b01111000000, "STURH"), (11, 0b10111000000, "STURW"),
    (11, 0b11001000000, "STXR"), (11, 0b10111100010, "LDURS"), (11, 0b11111100010, "LDURD"),
    (11, 0b10111100000, "STURS"), (11, 0b11111100000, "STURD")] ∧
  ((referencePT.filter (·.format = .i)).map fun e => (e.len, e.key.toNat, e.mnemonic)).Perm [
    (10, 0b1001000100, "ADDI"), (10, 0b1011000100, "ADDIS"), (10, 0b1001001000, "ANDI"), (10, 0b1111001000, "ANDIS"),
    (10, 0b1101001000, "EORI"), (10, 0b1011001000, "ORRI"), (10, 0b1101000100, "SUBI"), (10, 0b1111000100, "SUBIS")] ∧
  ((referencePT.filter (·.format = .im)).map fun e => (e.len, e.key.toNat, e.mnemonic)).Perm [
    (9, 0b110100101, "MOVZ"), (9, 0b111100101, "MOVK")] ∧
  ((referencePT.filter (·.format = .b)).map fun e => (e.len, e.key.toNat, e.mnemonic)).Perm [
    (6, 0b000101, "B"), (6, 0b100101, "BL")] ∧
  ((referencePT.filter (·.format = .cb)).map fun e => (e.len, e.key.toNat, e.mnemonic)).Perm [
    (8, 0b01010100, "B.COND"), (8, 0b10110100, "CBZ"), (8, 0b10110101, "CBNZ")] ∧
  referenceFS.length = 13 ∧ referencePT.length = 42 ∧
  (referencePT.filter (·.format = .r)).length = 13 ∧ (referencePT.filter (·.format = .d)).length = 14 ∧
  (referencePT.filter (·.format = .i)).length = 8 ∧ (referencePT.filter (·.format = .im)).length = 2 ∧
  (referencePT.filter (·.format = .b)).length = 2 ∧ (referencePT.filter (·.format = .cb)).length = 3 ∧
  tablesWf referenceFS referencePT = true

/-- Every FixedShamt instruction completes and gives its three-register line (R54, R80, R42). -/
def Obligations.FixedShamtInstructionsComplete : Prop :=
  ∀ (rd rn rm : RegIx) (s : State),
    let done : String → Host.Outcome State Fault Refusal := fun mn =>
      .next { s with responses := s.responses ++ [.line (mn ++ " X" ++ rd.toNat.repr ++ ", X" ++ rn.toNat.repr ++ ", X" ++ rm.toNat.repr)] }
    exec (.mul rd rn rm) s = done "MUL" ∧
    exec (.sdiv rd rn rm) s = done "SDIV" ∧
    exec (.udiv rd rn rm) s = done "UDIV" ∧
    exec (.fadds rd rn rm) s = done "FADDS" ∧
    exec (.faddd rd rn rm) s = done "FADDD" ∧
    exec (.fcmps rd rn rm) s = done "FCMPS" ∧
    exec (.fcmpd rd rn rm) s = done "FCMPD" ∧
    exec (.fdivs rd rn rm) s = done "FDIVS" ∧
    exec (.fdivd rd rn rm) s = done "FDIVD" ∧
    exec (.fmuls rd rn rm) s = done "FMULS" ∧
    exec (.fmuld rd rn rm) s = done "FMULD" ∧
    exec (.fsubs rd rn rm) s = done "FSUBS" ∧
    exec (.fsubd rd rn rm) s = done "FSUBD"

/-- Every R-format instruction completes and gives its line, with the LSL suffix exactly when shamt is not 0 (R54,
R100, R41). -/
def Obligations.RFormatInstructionsComplete : Prop :=
  ∀ (rd rn rm : RegIx) (shamt : BitVec 6) (s : State),
    let done : String → Host.Outcome State Fault Refusal := fun mn =>
      .next { s with responses := s.responses ++ [.line (mn ++ " X" ++ rd.toNat.repr ++ ", X" ++ rn.toNat.repr ++ ", X" ++ rm.toNat.repr ++
        (if shamt.toNat = 0 then "" else ", LSL #" ++ shamt.toNat.repr))] }
    exec (.add rd rn rm shamt) s = done "ADD" ∧
    exec (.adds rd rn rm shamt) s = done "ADDS" ∧
    exec (.and rd rn rm shamt) s = done "AND" ∧
    exec (.ands rd rn rm shamt) s = done "ANDS" ∧
    exec (.br rd rn rm shamt) s = done "BR" ∧
    exec (.eor rd rn rm shamt) s = done "EOR" ∧
    exec (.lsl rd rn rm shamt) s = done "LSL" ∧
    exec (.lsr rd rn rm shamt) s = done "LSR" ∧
    exec (.orr rd rn rm shamt) s = done "ORR" ∧
    exec (.sub rd rn rm shamt) s = done "SUB" ∧
    exec (.subs rd rn rm shamt) s = done "SUBS" ∧
    exec (.smulh rd rn rm shamt) s = done "SMULH" ∧
    exec (.umulh rd rn rm shamt) s = done "UMULH"

/-- Every D-format instruction completes and gives its line with the unsigned offset in brackets (R54, R120, R43). -/
def Obligations.DFormatInstructionsComplete : Prop :=
  ∀ (rt rn : RegIx) (imm : BitVec 9) (s : State),
    let done : String → Host.Outcome State Fault Refusal := fun mn =>
      .next { s with responses := s.responses ++ [.line (mn ++ " X" ++ rt.toNat.repr ++ ", [X" ++ rn.toNat.repr ++ ", #" ++ imm.toNat.repr ++ "]")] }
    exec (.ldur rt rn imm) s = done "LDUR" ∧
    exec (.ldurb rt rn imm) s = done "LDURB" ∧
    exec (.ldurh rt rn imm) s = done "LDURH" ∧
    exec (.ldursw rt rn imm) s = done "LDURSW" ∧
    exec (.ldxr rt rn imm) s = done "LDXR" ∧
    exec (.stur rt rn imm) s = done "STUR" ∧
    exec (.sturb rt rn imm) s = done "STURB" ∧
    exec (.sturh rt rn imm) s = done "STURH" ∧
    exec (.sturw rt rn imm) s = done "STURW" ∧
    exec (.stxr rt rn imm) s = done "STXR" ∧
    exec (.ldurs rt rn imm) s = done "LDURS" ∧
    exec (.ldurd rt rn imm) s = done "LDURD" ∧
    exec (.sturs rt rn imm) s = done "STURS" ∧
    exec (.sturd rt rn imm) s = done "STURD"

/-- Every I-format instruction completes and gives its line with the unsigned immediate (R54, R140, R44). -/
def Obligations.IFormatInstructionsComplete : Prop :=
  ∀ (rd rn : RegIx) (imm : BitVec 12) (s : State),
    let done : String → Host.Outcome State Fault Refusal := fun mn =>
      .next { s with responses := s.responses ++ [.line (mn ++ " X" ++ rd.toNat.repr ++ ", X" ++ rn.toNat.repr ++ ", #" ++ imm.toNat.repr)] }
    exec (.addi rd rn imm) s = done "ADDI" ∧
    exec (.addis rd rn imm) s = done "ADDIS" ∧
    exec (.andi rd rn imm) s = done "ANDI" ∧
    exec (.andis rd rn imm) s = done "ANDIS" ∧
    exec (.eori rd rn imm) s = done "EORI" ∧
    exec (.orri rd rn imm) s = done "ORRI" ∧
    exec (.subi rd rn imm) s = done "SUBI" ∧
    exec (.subis rd rn imm) s = done "SUBIS"

/-- MOVZ and MOVK complete and give the line with the shift folded into the value (R54, R150, R45). -/
def Obligations.IMFormatInstructionsComplete : Prop :=
  ∀ (rd : RegIx) (hw : BitVec 2) (imm : BitVec 16) (s : State),
    let done : String → Host.Outcome State Fault Refusal := fun mn =>
      .next { s with responses := s.responses ++ [.line (mn ++ " X" ++ rd.toNat.repr ++ ", #" ++ (imm.toNat * 2 ^ (16 * hw.toNat)).repr)] }
    exec (.movz rd hw imm) s = done "MOVZ" ∧
    exec (.movk rd hw imm) s = done "MOVK"

/-- B, BL, B.COND, CBZ and CBNZ complete and give the line with the signed byte displacement (R54, R160, R170, R75,
R71). -/
def Obligations.BranchInstructionsComplete : Prop :=
  (∀ (disp : BitVec 26) (s : State),
    let done : String → Host.Outcome State Fault Refusal := fun mn =>
      .next { s with responses := s.responses ++ [.line (mn ++ " #" ++
        (if disp.toInt < 0 then "-" ++ (-(disp.toInt * 4)).toNat.repr else (disp.toInt * 4).toNat.repr))] }
    exec (.b disp) s = done "B" ∧
    exec (.bl disp) s = done "BL") ∧
  ∀ (rt : RegIx) (disp : BitVec 19) (s : State),
    let done : String → Host.Outcome State Fault Refusal := fun mn =>
      .next { s with responses := s.responses ++ [.line (mn ++ " X" ++ rt.toNat.repr ++ ", #" ++
        (if disp.toInt < 0 then "-" ++ (-(disp.toInt * 4)).toNat.repr else (disp.toInt * 4).toNat.repr))] }
    exec (.bCond rt disp) s = done "B.COND" ∧
    exec (.cbz rt disp) s = done "CBZ" ∧
    exec (.cbnz rt disp) s = done "CBNZ"

/-- The fallback completes and gives the .word line (R69, R52). -/
def Obligations.FallbackCompletes : Prop :=
  ∀ (w : Word) (s : State), exec (.word w) s =
    .next { s with responses := s.responses ++ [.line (".word 0x" ++ (hex8 w ++ "    // unknown"))] }

/-- Every word of MUL, SDIV and UDIV renders its three-register line (R81, R82, R83). -/
def Obligations.IntegerMultiplyDivideWordsRender : Prop :=
  ∀ row ∈ [(0x9B007C00#32, "MUL"), (0x9AC00800#32, "SDIV"), (0x9AC00C00#32, "UDIV")],
    ∀ w : Word, w &&& 0xFFE0FC00#32 = row.1 →
      Renders w (row.2 ++ " X" ++ fieldText w 0 5 ++ ", X" ++ fieldText w 5 5 ++ ", X" ++ fieldText w 16 5)

/-- Every word of the ten floating-point entries renders its three-register line, registers as X<n> (R84, R85, R86,
R87, R88, R89, R90, R91, R92, R93). -/
def Obligations.FloatingPointWordsRender : Prop :=
  ∀ row ∈ [(0x1E202800#32, "FADDS"), (0x1E602800#32, "FADDD"), (0x1E202000#32, "FCMPS"),
      (0x1E602000#32, "FCMPD"), (0x1E201800#32, "FDIVS"), (0x1E601800#32, "FDIVD"),
      (0x1E200800#32, "FMULS"), (0x1E600800#32, "FMULD"), (0x1E203800#32, "FSUBS"),
      (0x1E603800#32, "FSUBD")],
    ∀ w : Word, w &&& 0xFFE0FC00#32 = row.1 →
      Renders w (row.2 ++ " X" ++ fieldText w 0 5 ++ ", X" ++ fieldText w 5 5 ++ ", X" ++ fieldText w 16 5)

/-- Every word of the R-format arithmetic and logic entries renders its line and shift suffix (R101, R102, R103, R104,
R106, R109, R110, R111). -/
def Obligations.ArithmeticLogicWordsRender : Prop :=
  ∀ row ∈ [(0x8B000000#32, "ADD"), (0xAB000000#32, "ADDS"), (0x8A000000#32, "AND"), (0xEA000000#32, "ANDS"),
      (0xCA000000#32, "EOR"), (0xAA000000#32, "ORR"), (0xCB000000#32, "SUB"),
      (0xEB000000#32, "SUBS")],
    ∀ w : Word, w &&& 0xFFE00000#32 = row.1 →
      Renders w (row.2 ++ " X" ++ fieldText w 0 5 ++ ", X" ++ fieldText w 5 5 ++ ", X" ++ fieldText w 16 5 ++
        (if w.toNat / 2 ^ 10 % 2 ^ 6 = 0 then "" else ", LSL #" ++ fieldText w 10 6))

/-- Every word of BR, LSL, LSR, SMULH and UMULH renders by the same R template (R105, R107, R108, R112, R113). -/
def Obligations.ShiftBranchHighMultiplyWordsRender : Prop :=
  ∀ row ∈ [(0xD6000000#32, "BR"), (0xD3600000#32, "LSL"), (0xD3400000#32, "LSR"), (0x9B400000#32, "SMULH"),
      (0x9BC00000#32, "UMULH")],
    ∀ w : Word, w &&& 0xFFE00000#32 = row.1 →
      Renders w (row.2 ++ " X" ++ fieldText w 0 5 ++ ", X" ++ fieldText w 5 5 ++ ", X" ++ fieldText w 16 5 ++
        (if w.toNat / 2 ^ 10 % 2 ^ 6 = 0 then "" else ", LSL #" ++ fieldText w 10 6))

/-- Every word of the seven load entries renders its D-format line with the unsigned offset (R121, R122, R123, R124,
R125, R131, R132). -/
def Obligations.LoadWordsRender : Prop :=
  ∀ row ∈ [(0xF8400000#32, "LDUR"), (0x38400000#32, "LDURB"), (0x78400000#32, "LDURH"),
      (0xB8800000#32, "LDURSW"), (0xC8400000#32, "LDXR"), (0xBC400000#32, "LDURS"),
      (0xFC400000#32, "LDURD")],
    ∀ w : Word, w &&& 0xFFE00000#32 = row.1 →
      Renders w (row.2 ++ " X" ++ fieldText w 0 5 ++ ", [X" ++ fieldText w 5 5 ++ ", #" ++ fieldText w 12 9 ++ "]")

/-- Every word of the seven store entries renders its D-format line with the unsigned offset (R126, R127, R128, R129,
R130, R133, R134). -/
def Obligations.StoreWordsRender : Prop :=
  ∀ row ∈ [(0xF8000000#32, "STUR"), (0x38000000#32, "STURB"), (0x78000000#32, "STURH"),
      (0xB8000000#32, "STURW"), (0xC8000000#32, "STXR"), (0xBC000000#32, "STURS"),
      (0xFC000000#32, "STURD")],
    ∀ w : Word, w &&& 0xFFE00000#32 = row.1 →
      Renders w (row.2 ++ " X" ++ fieldText w 0 5 ++ ", [X" ++ fieldText w 5 5 ++ ", #" ++ fieldText w 12 9 ++ "]")

/-- Every word of the eight I-format entries renders its line with the unsigned immediate (R141, R142, R143, R144,
R145, R146, R147, R148). -/
def Obligations.ImmediateWordsRender : Prop :=
  ∀ row ∈ [(0x91000000#32, "ADDI"), (0xB1000000#32, "ADDIS"), (0x92000000#32, "ANDI"),
      (0xF2000000#32, "ANDIS"), (0xD2000000#32, "EORI"), (0xB2000000#32, "ORRI"),
      (0xD1000000#32, "SUBI"), (0xF1000000#32, "SUBIS")],
    ∀ w : Word, w &&& 0xFFC00000#32 = row.1 →
      Renders w (row.2 ++ " X" ++ fieldText w 0 5 ++ ", X" ++ fieldText w 5 5 ++ ", #" ++ fieldText w 10 12)

/-- Every word of MOVZ and MOVK renders its line with the exact shifted value (R151, R152). -/
def Obligations.MoveWideWordsRender : Prop :=
  ∀ row ∈ [(0xD2800000#32, "MOVZ"), (0xF2800000#32, "MOVK")],
    ∀ w : Word, w &&& 0xFF800000#32 = row.1 →
      Renders w (row.2 ++ " X" ++ fieldText w 0 5 ++ ", #" ++
        (w.toNat / 2 ^ 5 % 2 ^ 16 * 2 ^ (16 * (w.toNat / 2 ^ 21 % 2 ^ 2))).repr)

/-- Every word of B and BL renders its line with the signed byte displacement (R161, R162). -/
def Obligations.BranchWordsRender : Prop :=
  ∀ row ∈ [(0x14000000#32, "B"), (0x94000000#32, "BL")],
    ∀ w : Word, w &&& 0xFC000000#32 = row.1 →
      let raw := w.toNat % 2 ^ 26
      Renders w (row.2 ++ " #" ++
        (if raw < 2 ^ 25 then (raw * 4).repr else "-" ++ ((2 ^ 26 - raw) * 4).repr))

/-- Every word of B.COND, CBZ and CBNZ renders its line with the signed byte displacement (R171, R172, R173). -/
def Obligations.ConditionalBranchWordsRender : Prop :=
  ∀ row ∈ [(0x54000000#32, "B.COND"), (0xB4000000#32, "CBZ"), (0xB5000000#32, "CBNZ")],
    ∀ w : Word, w &&& 0xFF000000#32 = row.1 →
      let raw := w.toNat / 2 ^ 5 % 2 ^ 19
      Renders w (row.2 ++ " X" ++ fieldText w 0 5 ++ ", #" ++
        (if raw < 2 ^ 18 then (raw * 4).repr else "-" ++ ((2 ^ 19 - raw) * 4).repr))

/-- Every word that matches no entry renders the .word line (R69). -/
def Obligations.UnknownWordsRenderTheFallback : Prop :=
  (∀ w : Word, isKnownWord referenceFS referencePT w = false →
    Renders w (".word 0x" ++ hex8 w ++ "    // unknown")) ∧
  Renders 0x00000000#32 ".word 0x00000000    // unknown"

/-- A word with a fixed-shamt opcode but another shamt falls through to the fallback (R80, R91, R82). -/
def Obligations.FixedShamtOpcodeWithOtherShamtIsUnknown : Prop :=
  ∀ w : Word, w.toNat / 2 ^ 21 ∈ [0b10011011000, 0b10011010110, 0b00011110001, 0b00011110011] →
    (∀ e ∈ referenceFS, w.toNat / 2 ^ 21 * 2 ^ 6 + w.toNat / 2 ^ 10 % 2 ^ 6 ≠ e.key.toNat) →
      Renders w (".word 0x" ++ hex8 w ++ "    // unknown")

/-- Over any well-formed tables the output is that of the lowest-numbered step whose probe hits (R61, R62, R66). -/
def Obligations.CascadeTakesTheLowestStep : Prop :=
  ∀ (fs : List FSEntry) (pt : List PTEntry), tablesWf fs pt = true → ∀ w : Word,
    let out := decodeText fs pt w
    let hit : PTEntry → Nat → Prop := fun e n => e ∈ pt ∧ e.len = n ∧ e.hits w = true
    let misses : Nat → Prop := fun n => ∀ e, ¬ hit e n
    (∀ e ∈ fs, e.hits w = true → out = renderFixedShamt e.mnemonic (rdField w) (rnField w) (rmField w)) ∧
    ((∀ e ∈ fs, e.hits w = false) →
      (∀ e, hit e 11 →
        (e.format = .r ∧ out = renderR e.mnemonic (rdField w) (rnField w) (rmField w) (shamtField w)) ∨
        (e.format = .d ∧ out = renderD e.mnemonic (rdField w) (rnField w) (imm9Field w))) ∧
      (misses 11 →
        (∀ e, hit e 10 → out = renderI e.mnemonic (rdField w) (rnField w) (imm12Field w)) ∧
        (misses 10 →
          (∀ e, hit e 9 → out = renderIM e.mnemonic (rdField w) (hwField w) (imm16Field w)) ∧
          (misses 9 →
            (∀ e, hit e 6 → out = renderB e.mnemonic (disp26Field w)) ∧
            (misses 6 →
              (∀ e, hit e 8 → out = renderCB e.mnemonic (rdField w) (disp19Field w)) ∧
              (misses 8 → out = renderUnknown w))))))

/-- Evaluating all six lookups at once and selecting by priority equals the cascade (R65). -/
def Obligations.ParallelLookupEqualsCascade : Prop :=
  ∀ (fs : List FSEntry) (pt : List PTEntry) (w : Word),
    classifyParallel fs pt w = classify fs pt w ∧
      render (classifyParallel fs pt w) = decodeText fs pt w

/-- An empty table makes its probes miss, and with both empty every word renders the fallback (R67). -/
def Obligations.EmptyTablesMissEverywhere : Prop :=
  ∀ w : Word, probeFixedShamt [] w = none ∧
    (probe11 [] w = none ∧ probe10 [] w = none ∧ probe9 [] w = none ∧ probe6 [] w = none ∧ probe8 [] w = none) ∧
    decodeText [] [] w = ".word 0x" ++ hex8 w ++ "    // unknown" ∧ tablesWf [] [] = true

/-- Two words of one entry render the same text exactly when they differ only in what the format does not show (R49,
R43, R45, R54). -/
def Obligations.OneEntryRendersDistinctWordsDistinctly : Prop :=
  ∀ w w' : Word,
    let same := decodeText referenceFS referencePT w = decodeText referenceFS referencePT w'
    (∀ e ∈ referenceFS, e.hits w = true → e.hits w' = true → same → w = w') ∧
    ∀ e ∈ referencePT, e.hits w = true → e.hits w' = true →
      (e.format ≠ .d → e.format ≠ .im → same → w = w') ∧
      (e.format = .d → (same ↔ w &&& 0xFFFFF3FF#32 = w' &&& 0xFFFFF3FF#32)) ∧
      (e.format = .im → (same ↔ w = w' ∨
        (w.toNat / 2 ^ 5 % 2 ^ 16 = 0 ∧ w'.toNat / 2 ^ 5 % 2 ^ 16 = 0 ∧ w.toNat % 2 ^ 5 = w'.toNat % 2 ^ 5)))

/-- Every extracted field is the word shifted right and masked, read unsigned (R73). -/
def Obligations.FieldsAreShiftAndMask : Prop :=
  ∀ w : Word,
    let cut : Nat → Nat → Nat := fun i j => (w.toNat >>> (32 - j)) &&& (2 ^ (j - i) - 1)
    (rdField w).toNat = cut 27 32 ∧ (rnField w).toNat = cut 22 27 ∧ (rmField w).toNat = cut 11 16 ∧
    (shamtField w).toNat = cut 16 22 ∧ (imm9Field w).toNat = cut 11 20 ∧ (imm12Field w).toNat = cut 10 22 ∧
    (hwField w).toNat = cut 9 11 ∧ (imm16Field w).toNat = cut 11 27 ∧ (disp26Field w).toNat = cut 6 32 ∧
    (disp19Field w).toNat = cut 8 27

/-- Sign extension is the two's-complement value, at every width (R74, R10). -/
def Obligations.SignExtensionIsTwosComplement : Prop :=
  ∀ (n : Nat) (v : BitVec (n + 1)), sext v = v.toInt ∧
    (sext v = if 2 ^ n ≤ v.toNat then (v.toNat : Int) - 2 ^ (n + 1) else (v.toNat : Int)) ∧
    -(2 ^ n : Int) ≤ sext v ∧ sext v ≤ 2 ^ n - 1

/-- B and CB displacements: the shifted field less 2^28 or 2^21 when the sign bit is set, in range, multiples of 4
(R75). -/
def Obligations.DisplacementsAreSignedMultiplesOfFour : Prop :=
  (∀ raw : BitVec 26, dispB raw = sext raw * 4 ∧
    dispB raw = ((raw.toNat <<< 2 : Nat) : Int) - (if raw.getLsbD 25 then 2 ^ 28 else 0) ∧
    -134217728 ≤ dispB raw ∧ dispB raw ≤ 134217724 ∧ (4 : Int) ∣ dispB raw) ∧
  ∀ raw : BitVec 19, dispCB raw = sext raw * 4 ∧
    dispCB raw = ((raw.toNat <<< 2 : Nat) : Int) - (if raw.getLsbD 18 then 2 ^ 21 else 0) ∧
    -1048576 ≤ dispCB raw ∧ dispCB raw ≤ 1048572 ∧ (4 : Int) ∣ dispCB raw

/-- The IM value is exact, at most 65535*2^48 < 2^64, exceeds 32 bits, and shows hw and imm unless imm is 0 (R76; the
last clause is R49(b)). -/
def Obligations.MoveWideValueIsExact : Prop :=
  (∀ (hw : BitVec 2) (imm : BitVec 16), imValue hw imm = imm.toNat <<< (16 * hw.toNat) ∧
    imValue hw imm ≤ 18446462598732840960 ∧
    ∀ (hw' : BitVec 2) (imm' : BitVec 16), imm ≠ 0 → imValue hw imm = imValue hw' imm' → hw = hw' ∧ imm = imm') ∧
  imValue 3 65535 = 18446462598732840960 ∧ 18446462598732840960 < 2 ^ 64 ∧ 2 ^ 32 ≤ imValue 2 1

/-- dec(n): 0 is "0", a positive number its digits without a leading zero, a negative one a minus and its opposite
(R71). -/
def Obligations.DecimalTextReadsBack : Prop :=
  dec 0 = "0" ∧
  (∀ n : Nat, 0 < n →
    (∀ c ∈ (dec n).toList, c ∈ ['0', '1', '2', '3', '4', '5', '6', '7', '8', '9']) ∧
    (dec n).toList.head? ≠ some '0' ∧
    (dec n).toList.foldl (fun acc c => acc * 10 + (c.toNat - '0'.toNat)) 0 = n) ∧
  ∀ n : Int, n < 0 → dec n = "-" ++ dec (-n)

/-- hex8(w) is exactly eight upper-case hexadecimal digits that read back to w (R72). -/
def Obligations.HexTextIsEightUpperCaseDigits : Prop :=
  ∀ w : Word, (hex8 w).toList.length = 8 ∧
    (∀ c ∈ (hex8 w).toList, c ∈ ['0', '1', '2', '3', '4', '5', '6', '7', '8', '9', 'A', 'B', 'C', 'D', 'E', 'F']) ∧
    (hex8 w).toList.foldl (fun acc c => acc * 16 + (if c.toNat ≤ '9'.toNat then c.toNat - '0'.toNat
      else c.toNat - 'A'.toNat + 10)) 0 = w.toNat

/-- reg(n) is X and the index in decimal, for every index, with no alias (R70). -/
def Obligations.RegisterTextNamesTheRegister : Prop :=
  (∀ n : RegIx, reg n = "X" ++ dec n.toNat) ∧ (∀ n m : RegIx, reg n = reg m → n = m) ∧
  reg 0 = "X0" ∧ reg 9 = "X9" ∧ reg 10 = "X10" ∧ reg 31 = "X31"

/-- On a block of the default tables, a step at a word request is exec of the decoded instruction (R28, R61, R24).
That the first request of the list is the one served is the model's choice, log entry 3. -/
def Obligations.StepRunsTheDecodedInstruction : Prop :=
  ∀ (s : State) (w : Word) (rest : List Request), s.isReference → s.requests = .word w :: rest →
    step s = exec (decode w) { s with requests := rest }

/-- Over any well-formed tables a step takes the oldest request and gives the response the block's function gives it
(R28, R60, R61, R79, R187, R189). That the oldest request is the one served is the model's choice, log entry 3; that a
rejected token is taken off and answered, the run going on, is its choice too, log entry 5. -/
def Obligations.StepAnswersTheOldestRequest : Prop :=
  ∀ (s : State) (q : Request) (rest : List Request), tablesWf s.fs s.pt = true → s.requests = q :: rest →
    step s = .next { s with
      requests := rest
      responses := s.responses ++ [match requestWord q with
        | .ok w => .line (decodeText s.fs s.pt w)
        | .error .invalidHex => .invalidHex
        | .error .invalidBinary => .invalidBinary] }

/-- With no request a step changes nothing (the model's choice, log entry 4) (R28, R220). -/
def Obligations.StepWithoutRequestIsIdle : Prop :=
  ∀ s : State, tablesWf s.fs s.pt = true → s.requests = [] → step s = .next s

/-- A block is built exactly from tables that pass checks (a), (b), (c); others are refused (R25, R202). -/
def Obligations.IllFormedTablesAreRefused : Prop :=
  ∀ (fs : List FSEntry) (pt : List PTEntry),
    let nameOk : String → Prop := fun m => m ≠ "" ∧ ∀ c ∈ m.toList, ('A' ≤ c ∧ c ≤ 'Z') ∨ ('0' ≤ c ∧ c ≤ '9') ∨ c = '.'
    let good : Prop :=
      fs.Pairwise (fun a b => a.key ≠ b.key) ∧
      pt.Pairwise (fun a b => ¬ (a.len = b.len ∧ a.key.toNat = b.key.toNat)) ∧
      (∀ e ∈ pt, ((e.format = .r ∨ e.format = .d) → e.len = 11) ∧ (e.format = .i → e.len = 10) ∧
        (e.format = .im → e.len = 9) ∧ (e.format = .b → e.len = 6) ∧ (e.format = .cb → e.len = 8)) ∧
      (∀ e ∈ fs, nameOk e.mnemonic) ∧ ∀ e ∈ pt, nameOk e.mnemonic
    (good → State.powerOn fs pt = .next { fs := fs, pt := pt, requests := [], responses := [] }) ∧
    (¬ good → State.powerOn fs pt = .refused .illFormedTables)

/-- A step of a state whose tables fail a check of R25 is refused under the name of the refused parameter, and is no fault
(R25, R202). That the step is where such a state is refused is the model's choice, log entry 2. -/
def Obligations.StepRefusesIllFormedTables : Prop :=
  ∀ s : State, (∃ a ∈ s.fs, mnemonicOk a.mnemonic = false) ∨ (∃ a ∈ s.pt, mnemonicOk a.mnemonic = false) ∨
    (∃ a ∈ s.pt, a.len ≠ a.format.keyLength) ∨ ¬ (s.fs.map (·.key)).Nodup ∨
    ¬ s.pt.Pairwise (fun a b => ¬ (a.len = b.len ∧ a.key.toNat = b.key.toNat)) →
      step s = .refused .illFormedTables

/-- No instruction, no step and no run changes either table (R27). -/
def Obligations.TablesAreNeverWritten : Prop :=
  (∀ (i : Instr) (s t : State), exec i s = .next t → t.fs = s.fs ∧ t.pt = s.pt) ∧
  (∀ s t : State, step s = .next t → t.fs = s.fs ∧ t.pt = s.pt) ∧
  ∀ (n : Nat) (s t : State), Sys2Proof.core.run n s = .next t → t.fs = s.fs ∧ t.pt = s.pt

/-- Every step keeps the invariant: well-formed tables, and every line given non-empty printable ASCII (R25, R222,
R60, R28, R11). -/
def Obligations.InvariantIsKeptByEveryStep : Prop :=
  ∀ s t : State, Inv s → step s = .next t → Inv t

/-- The invariant holds at reset and at every power-on (R29, R220, R222). -/
def Obligations.InvariantHoldsAtReset : Prop :=
  Inv State.reset ∧
  ∀ (fs : List FSEntry) (pt : List PTEntry) (s : State), State.powerOn fs pt = .next s → Inv s

/-- Reset holds the default tables, complete, and is what building a block from them gives (R29, R220, R24).
That no request and no response stands in it is the model's own, log entry 3. -/
def Obligations.ResetIsPowerOnWithTheDefaultTables : Prop :=
  State.reset.fs = referenceFS ∧ State.reset.pt = referenceR ++ referenceD ++ referenceI ++ referenceIM ++ referenceB ++ referenceCB ∧
  State.powerOn referenceFS referencePT = .next State.reset

/-- Every word is decoded, on any well-formed tables, to a non-empty line in one step (R60). -/
def Obligations.EveryWordGetsANonEmptyLine : Prop :=
  ∀ (fs : List FSEntry) (pt : List PTEntry), tablesWf fs pt = true → ∀ w : Word,
    decodeText fs pt w ≠ "" ∧
    (decodeText fs pt w = renderUnknown w ∨ ∃ r : Record, (∀ v, r ≠ .unknown v) ∧ decodeText fs pt w = render r) ∧
    ∀ (rest : List Request) (old : List Response),
      step { fs := fs, pt := pt, requests := .word w :: rest, responses := old } =
        .next { fs := fs, pt := pt, requests := rest, responses := old ++ [.line (decodeText fs pt w)] }

/-- However many steps are taken, a block never faults and never refuses, whatever was requested (R60, R200, R187,
R211). That a step past the last request is idle is the model's choice, log entry 4; that the run goes on after a
rejected token is its choice too, log entry 5. -/
def Obligations.EveryRunIsSafe : Prop :=
  ∀ (s : State) (qs : List Request), tablesWf s.fs s.pt = true → SafeRun { s with requests := qs }

/-- Running until the requests are served answers each of them by the block's function, in request order (R37, R38,
R189, R223). The order is the model's choice, log entry 3, and so is that the run goes on after a rejected token, log
entry 5. -/
def Obligations.RunAnswersEveryRequestInOrder : Prop :=
  ∀ s : State, tablesWf s.fs s.pt = true →
    Sys2Proof.core.run s.requests.length s =
      .next { s with requests := [], responses := s.responses ++ s.requests.map (answer s.fs s.pt) }

/-- Serving the same requests in another order gives every request the same response (R37, R38, R209, R223). Pairing
requests with responses by position rests on the model serving them in request order, log entry 3, and on its going on
after a rejected token, log entry 5. -/
def Obligations.RequestOrderDoesNotMatter : Prop :=
  ∀ (fs : List FSEntry) (pt : List PTEntry), tablesWf fs pt = true → ∀ qs qs' : List Request, qs.Perm qs' →
    ∃ rs rs' : List Response, rs.length = qs.length ∧ rs'.length = qs'.length ∧
      Sys2Proof.core.run qs.length { fs := fs, pt := pt, requests := qs, responses := [] } =
        .next { fs := fs, pt := pt, requests := [], responses := rs } ∧
      Sys2Proof.core.run qs'.length { fs := fs, pt := pt, requests := qs', responses := [] } =
        .next { fs := fs, pt := pt, requests := [], responses := rs' } ∧
      (qs.zip rs).Perm (qs'.zip rs')

/-- A response depends on nothing but the request and the two tables (R15, R20, R78). That a step serves the oldest
request is the model's choice, log entry 3; that it answers a rejected token is its choice too, log entry 5. -/
def Obligations.ResponseIgnoresHistory : Prop :=
  ∀ (s s' : State) (q : Request) (rest rest' : List Request), tablesWf s.fs s.pt = true →
    s'.fs = s.fs → s'.pt = s.pt → s.requests = q :: rest → s'.requests = q :: rest' →
    ∃ r : Response, step s = .next { s with requests := rest, responses := s.responses ++ [r] } ∧
      step s' = .next { s' with requests := rest', responses := s'.responses ++ [r] }

/-- With a primary entry added at MUL's opcode, MUL still wins on its own shamt and the new entry takes the others
(R62, R26). -/
def Obligations.FixedShamtEntryShadowsAPrimaryEntry : Prop :=
  let pt := ⟨11, 0b10011011000#11, "MULR", .r⟩ :: referencePT
  tablesWf referenceFS pt = true ∧ decodeText referenceFS pt 0x9B037C41#32 = "MUL X1, X2, X3" ∧
    decodeText referenceFS pt 0x9B030441#32 = "MULR X1, X2, X3, LSL #1"

/-- normalize_hex accepts exactly an optional prefix and up to eight hex digits, and gives their base-16 value (R181,
R182, R184, R185, R186, R187). -/
def Obligations.HexTokensAcceptedExactly : Prop :=
  ∀ token : String,
    let cs := token.toList
    let rest := if cs.take 2 = ['0', 'x'] ∨ cs.take 2 = ['0', 'X'] then cs.drop 2 else cs
    let value := rest.foldl (fun acc c => acc * 16 + (if c.toNat ≤ '9'.toNat then c.toNat - '0'.toNat
      else if c.toNat ≤ 'F'.toNat then c.toNat - 'A'.toNat + 10 else c.toNat - 'a'.toNat + 10)) 0
    let good := rest.length ≤ 8 ∧ ∀ c ∈ rest, c ∈ ['0', '1', '2', '3', '4', '5', '6', '7', '8', '9', 'a', 'b', 'c', 'd', 'e', 'f', 'A', 'B', 'C', 'D', 'E', 'F']
    (good → ∃ w : Word, normalizeHex token = .ok w ∧ w.toNat = value) ∧
    (¬ good → normalizeHex token = .error .invalidHex)

/-- For every valid 8-digit hex string, the token with and without 0x gives the same word (R188). -/
def Obligations.HexTokenPrefixIsOptional : Prop :=
  ∀ h : String, h.toList.length = 8 → (∀ c ∈ h.toList, c ∈ ['0', '1', '2', '3', '4', '5', '6', '7', '8', '9', 'a', 'b', 'c', 'd', 'e', 'f', 'A', 'B', 'C', 'D', 'E', 'F']) →
    normalizeHex ("0x" ++ h) = normalizeHex h ∧ ∃ w, normalizeHex h = .ok w

/-- The hex text of a word normalizes to that word, with 0x, 0X or no prefix (R72, R182). -/
def Obligations.HexTextNormalizesToItsWord : Prop :=
  ∀ w : Word, normalizeHex (hex8 w) = .ok w ∧ normalizeHex ("0x" ++ hex8 w) = .ok w ∧
    normalizeHex ("0X" ++ hex8 w) = .ok w

/-- normalize_binary accepts exactly non-empty strings of 0 and 1 whose value is below 2^32, right-aligned (R183,
R184, R185, R186, R187). -/
def Obligations.BinaryTokensAcceptedExactly : Prop :=
  ∀ token : String,
    let value := token.toList.foldl (fun acc c => acc * 2 + (if c = '1' then 1 else 0)) 0
    let good := token ≠ "" ∧ (∀ c ∈ token.toList, c = '0' ∨ c = '1') ∧ value < 2 ^ 32
    (good → ∃ w : Word, normalizeBinary token = .ok w ∧ w.toNat = value) ∧
    (¬ good → normalizeBinary token = .error .invalidBinary)

/-- A token request is served as its word, and a rejected token is answered by its error and the run goes on (R189,
R187, R201). R187 leaves it to the caller whether to skip or abort; that the token is taken off and the run goes on is the
model's choice, log entry 5. -/
def Obligations.TokensAreServedAsTheirWords : Prop :=
  (∀ (s : State) (token : String) (w : Word) (rest : List Request),
    (normalizeHex token = .ok w →
      step { s with requests := .hexToken token :: rest } = step { s with requests := .word w :: rest }) ∧
    (normalizeBinary token = .ok w →
      step { s with requests := .binaryToken token :: rest } = step { s with requests := .word w :: rest })) ∧
  (∀ (s : State) (token : String) (rest : List Request), tablesWf s.fs s.pt = true →
    ((∀ w, normalizeHex token ≠ .ok w) → step { s with requests := .hexToken token :: rest } =
      .next { s with requests := rest, responses := s.responses ++ [.invalidHex] }) ∧
    ((∀ w, normalizeBinary token ≠ .ok w) → step { s with requests := .binaryToken token :: rest } =
      .next { s with requests := rest, responses := s.responses ++ [.invalidBinary] })) ∧
  (∀ w, statusCode (.ok w) = 0) ∧ statusCode (.error .invalidHex) = 1 ∧ statusCode (.error .invalidBinary) = 2
end

