-- ==== Sys2Proof/Laws/Decode.lean ====
section
/-! SUPPORT. The decoder's small lemmas: a field cut out of a format's word is the field put in, records and instructions
of the reference population stand for each other, and what each probe can answer. -/

namespace Sys2Proof

/-- A slice that lies in the low part of a concatenation. -/
theorem slice_low {m n : Nat} (x : BitVec m) (y : BitVec n) {lo len : Nat} (h : lo + len ≤ n) :
    (x ++ y).extractLsb' lo len = y.extractLsb' lo len := BitVec.extractLsb'_append_eq_of_add_le h

/-- A slice that lies in the high part of a concatenation. -/
theorem slice_high {m n : Nat} (x : BitVec m) (y : BitVec n) {lo len : Nat} (h : n ≤ lo) :
    (x ++ y).extractLsb' lo len = x.extractLsb' (lo - n) len := BitVec.extractLsb'_append_eq_of_le h

/- Each lemma below says that a format's encoder puts a field where the extractor reads it (R41 to R47). -/

@[simp] theorem rdField_encodeFixedShamt (key : BitVec 17) (rd rn rm : RegIx) :
    rdField (encodeFixedShamt key rd rn rm) = rd := by
  unfold rdField encodeFixedShamt
  rw [slice_low _ _ (by decide)]
  simp

@[simp] theorem rnField_encodeFixedShamt (key : BitVec 17) (rd rn rm : RegIx) :
    rnField (encodeFixedShamt key rd rn rm) = rn := by
  unfold rnField encodeFixedShamt
  rw [slice_high _ _ (by decide), slice_low _ _ (by decide)]
  simp

@[simp] theorem shamtField_encodeFixedShamt (key : BitVec 17) (rd rn rm : RegIx) :
    shamtField (encodeFixedShamt key rd rn rm) = key.extractLsb' 0 6 := by
  unfold shamtField encodeFixedShamt
  rw [slice_high _ _ (by decide), slice_high _ _ (by decide), slice_low _ _ (by decide)]
  simp

@[simp] theorem rmField_encodeFixedShamt (key : BitVec 17) (rd rn rm : RegIx) :
    rmField (encodeFixedShamt key rd rn rm) = rm := by
  unfold rmField encodeFixedShamt
  rw [slice_high _ _ (by decide), slice_high _ _ (by decide), slice_high _ _ (by decide), slice_low _ _ (by decide)]
  simp

@[simp] theorem key11_encodeFixedShamt (key : BitVec 17) (rd rn rm : RegIx) :
    key11 (encodeFixedShamt key rd rn rm) = key.extractLsb' 6 11 := by
  unfold key11 encodeFixedShamt
  rw [slice_high _ _ (by decide), slice_high _ _ (by decide), slice_high _ _ (by decide), slice_high _ _ (by decide)]
  simp

@[simp] theorem fsKey_encodeFixedShamt (key : BitVec 17) (rd rn rm : RegIx) :
    fsKey (encodeFixedShamt key rd rn rm) = key := by
  rw [fsKey, key11_encodeFixedShamt, shamtField_encodeFixedShamt]
  apply BitVec.eq_of_getLsbD_eq
  intro n hn
  rw [BitVec.getLsbD_append]
  split
  · simp [*]
  · rw [BitVec.getLsbD_extractLsb', show 6 + (n - 6) = n by omega]
    simp [show n - 6 < 11 by omega]

@[simp] theorem rdField_encodeR (key : BitVec 11) (rd rn rm : RegIx) (shamt : BitVec 6) :
    rdField (encodeR key rd rn rm shamt) = rd := by
  unfold rdField encodeR
  rw [slice_low _ _ (by decide)]
  simp

@[simp] theorem rnField_encodeR (key : BitVec 11) (rd rn rm : RegIx) (shamt : BitVec 6) :
    rnField (encodeR key rd rn rm shamt) = rn := by
  unfold rnField encodeR
  rw [slice_high _ _ (by decide), slice_low _ _ (by decide)]
  simp

@[simp] theorem shamtField_encodeR (key : BitVec 11) (rd rn rm : RegIx) (shamt : BitVec 6) :
    shamtField (encodeR key rd rn rm shamt) = shamt := by
  unfold shamtField encodeR
  rw [slice_high _ _ (by decide), slice_high _ _ (by decide), slice_low _ _ (by decide)]
  simp

@[simp] theorem rmField_encodeR (key : BitVec 11) (rd rn rm : RegIx) (shamt : BitVec 6) :
    rmField (encodeR key rd rn rm shamt) = rm := by
  unfold rmField encodeR
  rw [slice_high _ _ (by decide), slice_high _ _ (by decide), slice_high _ _ (by decide), slice_low _ _ (by decide)]
  simp

@[simp] theorem key11_encodeR (key : BitVec 11) (rd rn rm : RegIx) (shamt : BitVec 6) :
    key11 (encodeR key rd rn rm shamt) = key := by
  unfold key11 encodeR
  rw [slice_high _ _ (by decide), slice_high _ _ (by decide), slice_high _ _ (by decide), slice_high _ _ (by decide)]
  simp

@[simp] theorem rdField_encodeD (key : BitVec 11) (rt rn : RegIx) (imm : BitVec 9) :
    rdField (encodeD key rt rn imm) = rt := by
  unfold rdField encodeD
  rw [slice_low _ _ (by decide)]
  simp

@[simp] theorem rnField_encodeD (key : BitVec 11) (rt rn : RegIx) (imm : BitVec 9) :
    rnField (encodeD key rt rn imm) = rn := by
  unfold rnField encodeD
  rw [slice_high _ _ (by decide), slice_low _ _ (by decide)]
  simp

@[simp] theorem imm9Field_encodeD (key : BitVec 11) (rt rn : RegIx) (imm : BitVec 9) :
    imm9Field (encodeD key rt rn imm) = imm := by
  unfold imm9Field encodeD
  rw [slice_high _ _ (by decide), slice_high _ _ (by decide), slice_high _ _ (by decide), slice_low _ _ (by decide)]
  simp

@[simp] theorem key11_encodeD (key : BitVec 11) (rt rn : RegIx) (imm : BitVec 9) :
    key11 (encodeD key rt rn imm) = key := by
  unfold key11 encodeD
  rw [slice_high _ _ (by decide), slice_high _ _ (by decide), slice_high _ _ (by decide), slice_high _ _ (by decide)]
  simp

@[simp] theorem rdField_encodeI (key : BitVec 10) (rd rn : RegIx) (imm : BitVec 12) :
    rdField (encodeI key rd rn imm) = rd := by
  unfold rdField encodeI
  rw [slice_low _ _ (by decide)]
  simp

@[simp] theorem rnField_encodeI (key : BitVec 10) (rd rn : RegIx) (imm : BitVec 12) :
    rnField (encodeI key rd rn imm) = rn := by
  unfold rnField encodeI
  rw [slice_high _ _ (by decide), slice_low _ _ (by decide)]
  simp

@[simp] theorem imm12Field_encodeI (key : BitVec 10) (rd rn : RegIx) (imm : BitVec 12) :
    imm12Field (encodeI key rd rn imm) = imm := by
  unfold imm12Field encodeI
  rw [slice_high _ _ (by decide), slice_high _ _ (by decide), slice_low _ _ (by decide)]
  simp

@[simp] theorem key10_encodeI (key : BitVec 10) (rd rn : RegIx) (imm : BitVec 12) :
    key10 (encodeI key rd rn imm) = key := by
  unfold key10 encodeI
  rw [slice_high _ _ (by decide), slice_high _ _ (by decide), slice_high _ _ (by decide)]
  simp

@[simp] theorem rdField_encodeIM (key : BitVec 9) (rd : RegIx) (hw : BitVec 2) (imm : BitVec 16) :
    rdField (encodeIM key rd hw imm) = rd := by
  unfold rdField encodeIM
  rw [slice_low _ _ (by decide)]
  simp

@[simp] theorem imm16Field_encodeIM (key : BitVec 9) (rd : RegIx) (hw : BitVec 2) (imm : BitVec 16) :
    imm16Field (encodeIM key rd hw imm) = imm := by
  unfold imm16Field encodeIM
  rw [slice_high _ _ (by decide), slice_low _ _ (by decide)]
  simp

@[simp] theorem hwField_encodeIM (key : BitVec 9) (rd : RegIx) (hw : BitVec 2) (imm : BitVec 16) :
    hwField (encodeIM key rd hw imm) = hw := by
  unfold hwField encodeIM
  rw [slice_high _ _ (by decide), slice_high _ _ (by decide), slice_low _ _ (by decide)]
  simp

@[simp] theorem key9_encodeIM (key : BitVec 9) (rd : RegIx) (hw : BitVec 2) (imm : BitVec 16) :
    key9 (encodeIM key rd hw imm) = key := by
  unfold key9 encodeIM
  rw [slice_high _ _ (by decide), slice_high _ _ (by decide), slice_high _ _ (by decide)]
  simp

@[simp] theorem disp26Field_encodeB (key : BitVec 6) (disp : BitVec 26) :
    disp26Field (encodeB key disp) = disp := by
  unfold disp26Field encodeB
  rw [slice_low _ _ (by decide)]
  simp

@[simp] theorem key6_encodeB (key : BitVec 6) (disp : BitVec 26) :
    key6 (encodeB key disp) = key := by
  unfold key6 encodeB
  rw [slice_high _ _ (by decide)]
  simp

@[simp] theorem rdField_encodeCB (key : BitVec 8) (rt : RegIx) (disp : BitVec 19) :
    rdField (encodeCB key rt disp) = rt := by
  unfold rdField encodeCB
  rw [slice_low _ _ (by decide)]
  simp

@[simp] theorem disp19Field_encodeCB (key : BitVec 8) (rt : RegIx) (disp : BitVec 19) :
    disp19Field (encodeCB key rt disp) = disp := by
  unfold disp19Field encodeCB
  rw [slice_high _ _ (by decide), slice_low _ _ (by decide)]
  simp

@[simp] theorem key8_encodeCB (key : BitVec 8) (rt : RegIx) (disp : BitVec 19) :
    key8 (encodeCB key rt disp) = key := by
  unfold key8 encodeCB
  rw [slice_high _ _ (by decide), slice_high _ _ (by decide)]
  simp

/- Records and instructions. -/

@[simp] theorem Instr.ofRecord_toRecord (i : Instr) : Instr.ofRecord i.toRecord = some i := by
  cases i <;> rfl

/-- What a lookup by mnemonic answers stands in the list under that mnemonic. -/
theorem mem_of_lookup {α : Type} {l : List (Mnemonic × α)} {mn : Mnemonic} {c : α} (h : l.lookup mn = some c) :
    (mn, c) ∈ l := by
  obtain ⟨l₁, l₂, rfl, -⟩ := List.lookup_eq_some_iff.mp h
  simp

/- Each named instruction's record holds its name, format by format. -/

theorem toRecord_of_mem_fixedShamtNames : ∀ p ∈ fixedShamtNames, ∀ rd rn rm, (p.2 rd rn rm).toRecord = .fixedShamt p.1 rd rn rm := by
  simp [fixedShamtNames, Instr.toRecord]

theorem toRecord_of_mem_rNames : ∀ p ∈ rNames, ∀ rd rn rm shamt, (p.2 rd rn rm shamt).toRecord = .r p.1 rd rn rm shamt := by
  simp [rNames, Instr.toRecord]

theorem toRecord_of_mem_dNames : ∀ p ∈ dNames, ∀ rt rn imm, (p.2 rt rn imm).toRecord = .d p.1 rt rn imm := by
  simp [dNames, Instr.toRecord]

theorem toRecord_of_mem_iNames : ∀ p ∈ iNames, ∀ rd rn imm, (p.2 rd rn imm).toRecord = .i p.1 rd rn imm := by
  simp [iNames, Instr.toRecord]

theorem toRecord_of_mem_imNames : ∀ p ∈ imNames, ∀ rd hw imm, (p.2 rd hw imm).toRecord = .im p.1 rd hw imm := by
  simp [imNames, Instr.toRecord]

theorem toRecord_of_mem_bNames : ∀ p ∈ bNames, ∀ disp, (p.2 disp).toRecord = .b p.1 disp := by
  simp [bNames, Instr.toRecord]

theorem toRecord_of_mem_cbNames : ∀ p ∈ cbNames, ∀ rt disp, (p.2 rt disp).toRecord = .cb p.1 rt disp := by
  simp [cbNames, Instr.toRecord]

/-- A record that stands for an instruction is that instruction's record. -/
theorem Instr.toRecord_of_ofRecord {r : Record} {i : Instr} (h : Instr.ofRecord r = some i) : i.toRecord = r := by
  cases r with
  | unknown w => cases h; rfl
  | fixedShamt mn rd rn rm =>
    obtain ⟨k, hk, rfl⟩ := Option.map_eq_some_iff.mp h
    exact toRecord_of_mem_fixedShamtNames _ (mem_of_lookup hk) rd rn rm
  | r mn rd rn rm shamt =>
    obtain ⟨k, hk, rfl⟩ := Option.map_eq_some_iff.mp h
    exact toRecord_of_mem_rNames _ (mem_of_lookup hk) rd rn rm shamt
  | d mn rt rn imm =>
    obtain ⟨k, hk, rfl⟩ := Option.map_eq_some_iff.mp h
    exact toRecord_of_mem_dNames _ (mem_of_lookup hk) rt rn imm
  | i mn rd rn imm =>
    obtain ⟨k, hk, rfl⟩ := Option.map_eq_some_iff.mp h
    exact toRecord_of_mem_iNames _ (mem_of_lookup hk) rd rn imm
  | im mn rd hw imm =>
    obtain ⟨k, hk, rfl⟩ := Option.map_eq_some_iff.mp h
    exact toRecord_of_mem_imNames _ (mem_of_lookup hk) rd hw imm
  | b mn disp =>
    obtain ⟨k, hk, rfl⟩ := Option.map_eq_some_iff.mp h
    exact toRecord_of_mem_bNames _ (mem_of_lookup hk) disp
  | cb mn rt disp =>
    obtain ⟨k, hk, rfl⟩ := Option.map_eq_some_iff.mp h
    exact toRecord_of_mem_cbNames _ (mem_of_lookup hk) rt disp

/-- The decoder is the cascade's record, read as an instruction. -/
theorem decode_of_ofRecord {w : Word} {i : Instr}
    (h : Instr.ofRecord (classify referenceFS referencePT w) = some i) : decode w = i := by
  simp [decode, h]

/- What a probe can answer (R61): on a hit, the record of its format with the fields of the word. -/

theorem probeFixedShamt_some {fs : List FSEntry} {w : Word} {r : Record} (h : probeFixedShamt fs w = some r) :
    ∃ mn, lookupFS fs (fsKey w) = some mn ∧ r = .fixedShamt mn (rdField w) (rnField w) (rmField w) := by
  unfold probeFixedShamt at h
  split at h
  · exact ⟨_, ‹_›, by simpa using h.symm⟩
  · cases h

theorem probe11_some {pt : List PTEntry} {w : Word} {r : Record} (h : probe11 pt w = some r) :
    (∃ mn, lookupPT pt (key11 w) = some (mn, .r) ∧
      r = .r mn (rdField w) (rnField w) (rmField w) (shamtField w)) ∨
    (∃ mn, lookupPT pt (key11 w) = some (mn, .d) ∧ r = .d mn (rdField w) (rnField w) (imm9Field w)) := by
  unfold probe11 at h
  split at h
  · exact .inl ⟨_, ‹_›, by simpa using h.symm⟩
  · exact .inr ⟨_, ‹_›, by simpa using h.symm⟩
  all_goals cases h

theorem probe10_some {pt : List PTEntry} {w : Word} {r : Record} (h : probe10 pt w = some r) :
    ∃ mn, lookupPT pt (key10 w) = some (mn, .i) ∧ r = .i mn (rdField w) (rnField w) (imm12Field w) := by
  unfold probe10 at h
  split at h
  · exact ⟨_, ‹_›, by simpa using h.symm⟩
  all_goals cases h

theorem probe9_some {pt : List PTEntry} {w : Word} {r : Record} (h : probe9 pt w = some r) :
    ∃ mn, lookupPT pt (key9 w) = some (mn, .im) ∧ r = .im mn (rdField w) (hwField w) (imm16Field w) := by
  unfold probe9 at h
  split at h
  · exact ⟨_, ‹_›, by simpa using h.symm⟩
  all_goals cases h

theorem probe6_some {pt : List PTEntry} {w : Word} {r : Record} (h : probe6 pt w = some r) :
    ∃ mn, lookupPT pt (key6 w) = some (mn, .b) ∧ r = .b mn (disp26Field w) := by
  unfold probe6 at h
  split at h
  · exact ⟨_, ‹_›, by simpa using h.symm⟩
  all_goals cases h

theorem probe8_some {pt : List PTEntry} {w : Word} {r : Record} (h : probe8 pt w = some r) :
    ∃ mn, lookupPT pt (key8 w) = some (mn, .cb) ∧ r = .cb mn (rdField w) (disp19Field w) := by
  unfold probe8 at h
  split at h
  · exact ⟨_, ‹_›, by simpa using h.symm⟩
  all_goals cases h

/-- The cascade says once what it can answer: one probe's record, or the unknown word. -/
theorem classify_cases (fs : List FSEntry) (pt : List PTEntry) (w : Word) :
    probeFixedShamt fs w = some (classify fs pt w) ∨ probe11 pt w = some (classify fs pt w) ∨
    probe10 pt w = some (classify fs pt w) ∨ probe9 pt w = some (classify fs pt w) ∨
    probe6 pt w = some (classify fs pt w) ∨ probe8 pt w = some (classify fs pt w) ∨
    classify fs pt w = .unknown w := by
  unfold classify
  repeat' split
  all_goals simp [*]

end Sys2Proof
end

