-- ==== Sys2Proof/Laws/State.lean ====
section
/-! SUPPORT. The small lemmas of the state's updates: one per field per update, each true by rfl, so that no proof
unfolds a record update. -/

namespace Sys2Proof.Machine

@[simp] theorem State.respond_fs (s : State) (r : Response) : (s.respond r).fs = s.fs := rfl
@[simp] theorem State.respond_pt (s : State) (r : Response) : (s.respond r).pt = s.pt := rfl
@[simp] theorem State.respond_requests (s : State) (r : Response) : (s.respond r).requests = s.requests := rfl
@[simp] theorem State.respond_responses (s : State) (r : Response) :
    (s.respond r).responses = s.responses ++ [r] := rfl

@[simp] theorem State.withRequests_fs (s : State) (qs : List Request) : (s.withRequests qs).fs = s.fs := rfl
@[simp] theorem State.withRequests_pt (s : State) (qs : List Request) : (s.withRequests qs).pt = s.pt := rfl
@[simp] theorem State.withRequests_requests (s : State) (qs : List Request) :
    (s.withRequests qs).requests = qs := rfl
@[simp] theorem State.withRequests_responses (s : State) (qs : List Request) :
    (s.withRequests qs).responses = s.responses := rfl

@[simp] theorem State.issueFirst_fs (s : State) (w : Word) : (s.issueFirst w).fs = s.fs := rfl
@[simp] theorem State.issueFirst_pt (s : State) (w : Word) : (s.issueFirst w).pt = s.pt := rfl
@[simp] theorem State.issueFirst_requests (s : State) (w : Word) :
    (s.issueFirst w).requests = .word w :: s.requests := rfl
@[simp] theorem State.issueFirst_responses (s : State) (w : Word) :
    (s.issueFirst w).responses = s.responses := rfl

@[simp] theorem State.reset_fs : State.reset.fs = referenceFS := rfl
@[simp] theorem State.reset_pt : State.reset.pt = referencePT := rfl
@[simp] theorem State.reset_requests : State.reset.requests = [] := rfl
@[simp] theorem State.reset_responses : State.reset.responses = [] := rfl

end Sys2Proof.Machine
end

