-- ==== Sys2Proof/Laws/Ops.lean ====
section
/-! SUPPORT. What each shared operation and each meaning can do, said once: later proofs cite these lemmas instead of
unfolding the operations. -/

namespace Sys2Proof.Machine

/-- Emitting a line gives a next state, with that line as the newest response and nothing else changed. -/
theorem emitLine_eq (t : String) (s : State) : emitLine t s = .next (s.respond (.line t)) := rfl

/-- Answering a Normalizer error gives a next state, with that error as the newest response and nothing else changed. -/
theorem emitError_eq (e : NormError) (s : State) :
    emitError e s = .next (s.respond (match e with | .invalidHex => .invalidHex | .invalidBinary => .invalidBinary)) := by
  cases e <;> rfl

/-- Power-on gives a state exactly for a well-formed table pair, and refuses the others. -/
theorem powerOn_cases (fs : List FSEntry) (pt : List PTEntry) :
    (tablesWf fs pt = true ∧
      State.powerOn fs pt = .next { fs := fs, pt := pt, requests := [], responses := [] }) ∨
    (tablesWf fs pt = false ∧ State.powerOn fs pt = .refused .illFormedTables) := by
  cases h : tablesWf fs pt <;> simp [State.powerOn, h]

/-- Every meaning emits the line its instruction's record renders to, and does nothing else. -/
theorem exec_eq (i : Instr) (s : State) : exec i s = .next (s.respond (.line (render i.toRecord))) := by
  cases i <;> rfl

/-- Running a record emits the line it renders to, whether or not an instruction stands for it. -/
theorem runRecord_eq (r : Record) (s : State) : runRecord r s = .next (s.respond (.line (render r))) := by
  unfold runRecord
  split
  next i h => rw [exec_eq, Instr.toRecord_of_ofRecord h]
  next => rfl

/-- Serving a request always gives a next state: one more response and nothing else changed. -/
theorem serve_cases (q : Request) (s : State) : ∃ r, serve q s = .next (s.respond r) := by
  unfold serve
  split
  · exact ⟨_, runRecord_eq _ s⟩
  · exact ⟨_, emitError_eq _ s⟩

/-- What one step can do: refuse a state whose tables are ill-formed, stay as it is when no request is left, or take the
oldest request off and give one response. -/
theorem serveNext_cases (s : State) :
    (s.requests = [] ∧ serveNext s = .next s) ∨
    ∃ q rest r, s.requests = q :: rest ∧ serveNext s = .next ((s.withRequests rest).respond r) := by
  unfold serveNext
  split
  · exact .inl ⟨‹_›, rfl⟩
  next q rest h =>
    obtain ⟨r, hr⟩ := serve_cases q (s.withRequests rest)
    exact .inr ⟨q, rest, r, h, hr⟩

end Sys2Proof.Machine
end

