-- ==== Sys2Proof/Laws/PerInstr.lean ====
section
/-! SUPPORT. The per-instruction family EncodingFixedBits: the encoder writes every fixed bit of the instruction's row in
the opcode table (its match under its mask, R48), so no key bit is dropped or misplaced. -/

namespace Sys2Proof.Laws

/-- Under a mask of the top bits, a word is its top slice put back in place. -/
theorem and_topMask (w : Word) (lo len : Nat) (h : lo + len = 32) :
    w &&& (BitVec.allOnes 32 <<< lo) = (w.extractLsb' lo len).setWidth 32 <<< lo := by
  apply BitVec.eq_of_getLsbD_eq
  intro n hn
  simp only [BitVec.getLsbD_and, BitVec.getLsbD_shiftLeft, BitVec.getLsbD_setWidth, BitVec.getLsbD_extractLsb',
    BitVec.getLsbD_allOnes]
  by_cases hlo : n < lo
  · simp [hlo]
  · simp [hn, hlo, show n - lo < 32 by omega, show n - lo < len by omega, show lo + (n - lo) = n by omega]

theorem fixedBits_encodeR (key : BitVec 11) (rd rn rm : RegIx) (shamt : BitVec 6) :
    encodeR key rd rn rm shamt &&& 0xFFE00000#32 = key.setWidth 32 <<< 21 := by
  rw [show 0xFFE00000#32 = BitVec.allOnes 32 <<< 21 by decide, and_topMask _ 21 11 rfl]
  exact congrArg (fun k => BitVec.setWidth 32 k <<< 21) (key11_encodeR key rd rn rm shamt)

theorem fixedBits_encodeD (key : BitVec 11) (rt rn : RegIx) (imm : BitVec 9) :
    encodeD key rt rn imm &&& 0xFFE00000#32 = key.setWidth 32 <<< 21 := by
  rw [show 0xFFE00000#32 = BitVec.allOnes 32 <<< 21 by decide, and_topMask _ 21 11 rfl]
  exact congrArg (fun k => BitVec.setWidth 32 k <<< 21) (key11_encodeD key rt rn imm)

theorem fixedBits_encodeI (key : BitVec 10) (rd rn : RegIx) (imm : BitVec 12) :
    encodeI key rd rn imm &&& 0xFFC00000#32 = key.setWidth 32 <<< 22 := by
  rw [show 0xFFC00000#32 = BitVec.allOnes 32 <<< 22 by decide, and_topMask _ 22 10 rfl]
  exact congrArg (fun k => BitVec.setWidth 32 k <<< 22) (key10_encodeI key rd rn imm)

theorem fixedBits_encodeIM (key : BitVec 9) (rd : RegIx) (hw : BitVec 2) (imm : BitVec 16) :
    encodeIM key rd hw imm &&& 0xFF800000#32 = key.setWidth 32 <<< 23 := by
  rw [show 0xFF800000#32 = BitVec.allOnes 32 <<< 23 by decide, and_topMask _ 23 9 rfl]
  exact congrArg (fun k => BitVec.setWidth 32 k <<< 23) (key9_encodeIM key rd hw imm)

theorem fixedBits_encodeB (key : BitVec 6) (disp : BitVec 26) :
    encodeB key disp &&& 0xFC000000#32 = key.setWidth 32 <<< 26 := by
  rw [show 0xFC000000#32 = BitVec.allOnes 32 <<< 26 by decide, and_topMask _ 26 6 rfl]
  exact congrArg (fun k => BitVec.setWidth 32 k <<< 26) (key6_encodeB key disp)

theorem fixedBits_encodeCB (key : BitVec 8) (rt : RegIx) (disp : BitVec 19) :
    encodeCB key rt disp &&& 0xFF000000#32 = key.setWidth 32 <<< 24 := by
  rw [show 0xFF000000#32 = BitVec.allOnes 32 <<< 24 by decide, and_topMask _ 24 8 rfl]
  exact congrArg (fun k => BitVec.setWidth 32 k <<< 24) (key8_encodeCB key rt disp)

theorem fixedBits_encodeFixedShamt (key : BitVec 17) (rd rn rm : RegIx) :
    encodeFixedShamt key rd rn rm &&& 0xFFE0FC00#32 =
      ((key.extractLsb' 6 11).setWidth 32 <<< 21) ||| ((key.extractLsb' 0 6).setWidth 32 <<< 10) := by
  rw [show 0xFFE0FC00#32 = (BitVec.allOnes 32 <<< 21) ||| ((BitVec.allOnes 6).setWidth 32 <<< 10) by decide]
  rw [← key11_encodeFixedShamt key rd rn rm, ← shamtField_encodeFixedShamt key rd rn rm]
  generalize encodeFixedShamt key rd rn rm = w
  apply BitVec.eq_of_getLsbD_eq
  intro n hn
  simp only [key11, shamtField, BitVec.getLsbD_and, BitVec.getLsbD_or, BitVec.getLsbD_shiftLeft,
    BitVec.getLsbD_setWidth, BitVec.getLsbD_extractLsb', BitVec.getLsbD_allOnes]
  by_cases h21 : n < 21
  · by_cases h10 : n < 10
    · simp [h21, h10]
    · by_cases h16 : n < 16
      · simp [h21, h10, hn, show n - 10 < 6 by omega, show n - 10 < 32 by omega, show 10 + (n - 10) = n by omega]
      · simp [h21, show ¬ n - 10 < 6 by omega]
  · simp [h21, hn, show n - 21 < 32 by omega, show n - 21 < 11 by omega, show 21 + (n - 21) = n by omega,
      show ¬ n - 10 < 6 by omega]

/-- The mask and the match of the instruction's row, as the opcode table gives them. The fallback row fixes no bit. -/
def EncodingFixedBits.row : Instr → Word × Word
  | .mul _ _ _ => (0xFFE0FC00#32, 0x9B007C00#32)
  | .sdiv _ _ _ => (0xFFE0FC00#32, 0x9AC00800#32)
  | .udiv _ _ _ => (0xFFE0FC00#32, 0x9AC00C00#32)
  | .fadds _ _ _ => (0xFFE0FC00#32, 0x1E202800#32)
  | .faddd _ _ _ => (0xFFE0FC00#32, 0x1E602800#32)
  | .fcmps _ _ _ => (0xFFE0FC00#32, 0x1E202000#32)
  | .fcmpd _ _ _ => (0xFFE0FC00#32, 0x1E602000#32)
  | .fdivs _ _ _ => (0xFFE0FC00#32, 0x1E201800#32)
  | .fdivd _ _ _ => (0xFFE0FC00#32, 0x1E601800#32)
  | .fmuls _ _ _ => (0xFFE0FC00#32, 0x1E200800#32)
  | .fmuld _ _ _ => (0xFFE0FC00#32, 0x1E600800#32)
  | .fsubs _ _ _ => (0xFFE0FC00#32, 0x1E203800#32)
  | .fsubd _ _ _ => (0xFFE0FC00#32, 0x1E603800#32)
  | .add _ _ _ _ => (0xFFE00000#32, 0x8B000000#32)
  | .adds _ _ _ _ => (0xFFE00000#32, 0xAB000000#32)
  | .and _ _ _ _ => (0xFFE00000#32, 0x8A000000#32)
  | .ands _ _ _ _ => (0xFFE00000#32, 0xEA000000#32)
  | .br _ _ _ _ => (0xFFE00000#32, 0xD6000000#32)
  | .eor _ _ _ _ => (0xFFE00000#32, 0xCA000000#32)
  | .lsl _ _ _ _ => (0xFFE00000#32, 0xD3600000#32)
  | .lsr _ _ _ _ => (0xFFE00000#32, 0xD3400000#32)
  | .orr _ _ _ _ => (0xFFE00000#32, 0xAA000000#32)
  | .sub _ _ _ _ => (0xFFE00000#32, 0xCB000000#32)
  | .subs _ _ _ _ => (0xFFE00000#32, 0xEB000000#32)
  | .smulh _ _ _ _ => (0xFFE00000#32, 0x9B400000#32)
  | .umulh _ _ _ _ => (0xFFE00000#32, 0x9BC00000#32)
  | .ldur _ _ _ => (0xFFE00000#32, 0xF8400000#32)
  | .ldurb _ _ _ => (0xFFE00000#32, 0x38400000#32)
  | .ldurh _ _ _ => (0xFFE00000#32, 0x78400000#32)
  | .ldursw _ _ _ => (0xFFE00000#32, 0xB8800000#32)
  | .ldxr _ _ _ => (0xFFE00000#32, 0xC8400000#32)
  | .stur _ _ _ => (0xFFE00000#32, 0xF8000000#32)
  | .sturb _ _ _ => (0xFFE00000#32, 0x38000000#32)
  | .sturh _ _ _ => (0xFFE00000#32, 0x78000000#32)
  | .sturw _ _ _ => (0xFFE00000#32, 0xB8000000#32)
  | .stxr _ _ _ => (0xFFE00000#32, 0xC8000000#32)
  | .ldurs _ _ _ => (0xFFE00000#32, 0xBC400000#32)
  | .ldurd _ _ _ => (0xFFE00000#32, 0xFC400000#32)
  | .sturs _ _ _ => (0xFFE00000#32, 0xBC000000#32)
  | .sturd _ _ _ => (0xFFE00000#32, 0xFC000000#32)
  | .addi _ _ _ => (0xFFC00000#32, 0x91000000#32)
  | .addis _ _ _ => (0xFFC00000#32, 0xB1000000#32)
  | .andi _ _ _ => (0xFFC00000#32, 0x92000000#32)
  | .andis _ _ _ => (0xFFC00000#32, 0xF2000000#32)
  | .eori _ _ _ => (0xFFC00000#32, 0xD2000000#32)
  | .orri _ _ _ => (0xFFC00000#32, 0xB2000000#32)
  | .subi _ _ _ => (0xFFC00000#32, 0xD1000000#32)
  | .subis _ _ _ => (0xFFC00000#32, 0xF1000000#32)
  | .movz _ _ _ => (0xFF800000#32, 0xD2800000#32)
  | .movk _ _ _ => (0xFF800000#32, 0xF2800000#32)
  | .b _ => (0xFC000000#32, 0x14000000#32)
  | .bl _ => (0xFC000000#32, 0x94000000#32)
  | .bCond _ _ => (0xFF000000#32, 0x54000000#32)
  | .cbz _ _ => (0xFF000000#32, 0xB4000000#32)
  | .cbnz _ _ => (0xFF000000#32, 0xB5000000#32)
  | .word _ => (0x00000000#32, 0x00000000#32)

/-- The encoded instruction has the fixed bits of its row. -/
def EncodingFixedBits.Statement (i : Instr) : Prop :=
  encode i &&& (EncodingFixedBits.row i).1 = (EncodingFixedBits.row i).2

theorem EncodingFixedBits.mul (rd rn rm : RegIx) : EncodingFixedBits.Statement (.mul rd rn rm) :=
  (fixedBits_encodeFixedShamt _ rd rn rm).trans rfl
theorem EncodingFixedBits.sdiv (rd rn rm : RegIx) : EncodingFixedBits.Statement (.sdiv rd rn rm) :=
  (fixedBits_encodeFixedShamt _ rd rn rm).trans rfl
theorem EncodingFixedBits.udiv (rd rn rm : RegIx) : EncodingFixedBits.Statement (.udiv rd rn rm) :=
  (fixedBits_encodeFixedShamt _ rd rn rm).trans rfl
theorem EncodingFixedBits.fadds (rd rn rm : RegIx) : EncodingFixedBits.Statement (.fadds rd rn rm) :=
  (fixedBits_encodeFixedShamt _ rd rn rm).trans rfl
theorem EncodingFixedBits.faddd (rd rn rm : RegIx) : EncodingFixedBits.Statement (.faddd rd rn rm) :=
  (fixedBits_encodeFixedShamt _ rd rn rm).trans rfl
theorem EncodingFixedBits.fcmps (rd rn rm : RegIx) : EncodingFixedBits.Statement (.fcmps rd rn rm) :=
  (fixedBits_encodeFixedShamt _ rd rn rm).trans rfl
theorem EncodingFixedBits.fcmpd (rd rn rm : RegIx) : EncodingFixedBits.Statement (.fcmpd rd rn rm) :=
  (fixedBits_encodeFixedShamt _ rd rn rm).trans rfl
theorem EncodingFixedBits.fdivs (rd rn rm : RegIx) : EncodingFixedBits.Statement (.fdivs rd rn rm) :=
  (fixedBits_encodeFixedShamt _ rd rn rm).trans rfl
theorem EncodingFixedBits.fdivd (rd rn rm : RegIx) : EncodingFixedBits.Statement (.fdivd rd rn rm) :=
  (fixedBits_encodeFixedShamt _ rd rn rm).trans rfl
theorem EncodingFixedBits.fmuls (rd rn rm : RegIx) : EncodingFixedBits.Statement (.fmuls rd rn rm) :=
  (fixedBits_encodeFixedShamt _ rd rn rm).trans rfl
theorem EncodingFixedBits.fmuld (rd rn rm : RegIx) : EncodingFixedBits.Statement (.fmuld rd rn rm) :=
  (fixedBits_encodeFixedShamt _ rd rn rm).trans rfl
theorem EncodingFixedBits.fsubs (rd rn rm : RegIx) : EncodingFixedBits.Statement (.fsubs rd rn rm) :=
  (fixedBits_encodeFixedShamt _ rd rn rm).trans rfl
theorem EncodingFixedBits.fsubd (rd rn rm : RegIx) : EncodingFixedBits.Statement (.fsubd rd rn rm) :=
  (fixedBits_encodeFixedShamt _ rd rn rm).trans rfl
theorem EncodingFixedBits.add (rd rn rm : RegIx) (shamt : BitVec 6) : EncodingFixedBits.Statement (.add rd rn rm shamt) :=
  (fixedBits_encodeR _ rd rn rm shamt).trans rfl
theorem EncodingFixedBits.adds (rd rn rm : RegIx) (shamt : BitVec 6) : EncodingFixedBits.Statement (.adds rd rn rm shamt) :=
  (fixedBits_encodeR _ rd rn rm shamt).trans rfl
theorem EncodingFixedBits.and (rd rn rm : RegIx) (shamt : BitVec 6) : EncodingFixedBits.Statement (.and rd rn rm shamt) :=
  (fixedBits_encodeR _ rd rn rm shamt).trans rfl
theorem EncodingFixedBits.ands (rd rn rm : RegIx) (shamt : BitVec 6) : EncodingFixedBits.Statement (.ands rd rn rm shamt) :=
  (fixedBits_encodeR _ rd rn rm shamt).trans rfl
theorem EncodingFixedBits.br (rd rn rm : RegIx) (shamt : BitVec 6) : EncodingFixedBits.Statement (.br rd rn rm shamt) :=
  (fixedBits_encodeR _ rd rn rm shamt).trans rfl
theorem EncodingFixedBits.eor (rd rn rm : RegIx) (shamt : BitVec 6) : EncodingFixedBits.Statement (.eor rd rn rm shamt) :=
  (fixedBits_encodeR _ rd rn rm shamt).trans rfl
theorem EncodingFixedBits.lsl (rd rn rm : RegIx) (shamt : BitVec 6) : EncodingFixedBits.Statement (.lsl rd rn rm shamt) :=
  (fixedBits_encodeR _ rd rn rm shamt).trans rfl
theorem EncodingFixedBits.lsr (rd rn rm : RegIx) (shamt : BitVec 6) : EncodingFixedBits.Statement (.lsr rd rn rm shamt) :=
  (fixedBits_encodeR _ rd rn rm shamt).trans rfl
theorem EncodingFixedBits.orr (rd rn rm : RegIx) (shamt : BitVec 6) : EncodingFixedBits.Statement (.orr rd rn rm shamt) :=
  (fixedBits_encodeR _ rd rn rm shamt).trans rfl
theorem EncodingFixedBits.sub (rd rn rm : RegIx) (shamt : BitVec 6) : EncodingFixedBits.Statement (.sub rd rn rm shamt) :=
  (fixedBits_encodeR _ rd rn rm shamt).trans rfl
theorem EncodingFixedBits.subs (rd rn rm : RegIx) (shamt : BitVec 6) : EncodingFixedBits.Statement (.subs rd rn rm shamt) :=
  (fixedBits_encodeR _ rd rn rm shamt).trans rfl
theorem EncodingFixedBits.smulh (rd rn rm : RegIx) (shamt : BitVec 6) : EncodingFixedBits.Statement (.smulh rd rn rm shamt) :=
  (fixedBits_encodeR _ rd rn rm shamt).trans rfl
theorem EncodingFixedBits.umulh (rd rn rm : RegIx) (shamt : BitVec 6) : EncodingFixedBits.Statement (.umulh rd rn rm shamt) :=
  (fixedBits_encodeR _ rd rn rm shamt).trans rfl
theorem EncodingFixedBits.ldur (rt rn : RegIx) (imm : BitVec 9) : EncodingFixedBits.Statement (.ldur rt rn imm) :=
  (fixedBits_encodeD _ rt rn imm).trans rfl
theorem EncodingFixedBits.ldurb (rt rn : RegIx) (imm : BitVec 9) : EncodingFixedBits.Statement (.ldurb rt rn imm) :=
  (fixedBits_encodeD _ rt rn imm).trans rfl
theorem EncodingFixedBits.ldurh (rt rn : RegIx) (imm : BitVec 9) : EncodingFixedBits.Statement (.ldurh rt rn imm) :=
  (fixedBits_encodeD _ rt rn imm).trans rfl
theorem EncodingFixedBits.ldursw (rt rn : RegIx) (imm : BitVec 9) : EncodingFixedBits.Statement (.ldursw rt rn imm) :=
  (fixedBits_encodeD _ rt rn imm).trans rfl
theorem EncodingFixedBits.ldxr (rt rn : RegIx) (imm : BitVec 9) : EncodingFixedBits.Statement (.ldxr rt rn imm) :=
  (fixedBits_encodeD _ rt rn imm).trans rfl
theorem EncodingFixedBits.stur (rt rn : RegIx) (imm : BitVec 9) : EncodingFixedBits.Statement (.stur rt rn imm) :=
  (fixedBits_encodeD _ rt rn imm).trans rfl
theorem EncodingFixedBits.sturb (rt rn : RegIx) (imm : BitVec 9) : EncodingFixedBits.Statement (.sturb rt rn imm) :=
  (fixedBits_encodeD _ rt rn imm).trans rfl
theorem EncodingFixedBits.sturh (rt rn : RegIx) (imm : BitVec 9) : EncodingFixedBits.Statement (.sturh rt rn imm) :=
  (fixedBits_encodeD _ rt rn imm).trans rfl
theorem EncodingFixedBits.sturw (rt rn : RegIx) (imm : BitVec 9) : EncodingFixedBits.Statement (.sturw rt rn imm) :=
  (fixedBits_encodeD _ rt rn imm).trans rfl
theorem EncodingFixedBits.stxr (rt rn : RegIx) (imm : BitVec 9) : EncodingFixedBits.Statement (.stxr rt rn imm) :=
  (fixedBits_encodeD _ rt rn imm).trans rfl
theorem EncodingFixedBits.ldurs (rt rn : RegIx) (imm : BitVec 9) : EncodingFixedBits.Statement (.ldurs rt rn imm) :=
  (fixedBits_encodeD _ rt rn imm).trans rfl
theorem EncodingFixedBits.ldurd (rt rn : RegIx) (imm : BitVec 9) : EncodingFixedBits.Statement (.ldurd rt rn imm) :=
  (fixedBits_encodeD _ rt rn imm).trans rfl
theorem EncodingFixedBits.sturs (rt rn : RegIx) (imm : BitVec 9) : EncodingFixedBits.Statement (.sturs rt rn imm) :=
  (fixedBits_encodeD _ rt rn imm).trans rfl
theorem EncodingFixedBits.sturd (rt rn : RegIx) (imm : BitVec 9) : EncodingFixedBits.Statement (.sturd rt rn imm) :=
  (fixedBits_encodeD _ rt rn imm).trans rfl
theorem EncodingFixedBits.addi (rd rn : RegIx) (imm : BitVec 12) : EncodingFixedBits.Statement (.addi rd rn imm) :=
  (fixedBits_encodeI _ rd rn imm).trans rfl
theorem EncodingFixedBits.addis (rd rn : RegIx) (imm : BitVec 12) : EncodingFixedBits.Statement (.addis rd rn imm) :=
  (fixedBits_encodeI _ rd rn imm).trans rfl
theorem EncodingFixedBits.andi (rd rn : RegIx) (imm : BitVec 12) : EncodingFixedBits.Statement (.andi rd rn imm) :=
  (fixedBits_encodeI _ rd rn imm).trans rfl
theorem EncodingFixedBits.andis (rd rn : RegIx) (imm : BitVec 12) : EncodingFixedBits.Statement (.andis rd rn imm) :=
  (fixedBits_encodeI _ rd rn imm).trans rfl
theorem EncodingFixedBits.eori (rd rn : RegIx) (imm : BitVec 12) : EncodingFixedBits.Statement (.eori rd rn imm) :=
  (fixedBits_encodeI _ rd rn imm).trans rfl
theorem EncodingFixedBits.orri (rd rn : RegIx) (imm : BitVec 12) : EncodingFixedBits.Statement (.orri rd rn imm) :=
  (fixedBits_encodeI _ rd rn imm).trans rfl
theorem EncodingFixedBits.subi (rd rn : RegIx) (imm : BitVec 12) : EncodingFixedBits.Statement (.subi rd rn imm) :=
  (fixedBits_encodeI _ rd rn imm).trans rfl
theorem EncodingFixedBits.subis (rd rn : RegIx) (imm : BitVec 12) : EncodingFixedBits.Statement (.subis rd rn imm) :=
  (fixedBits_encodeI _ rd rn imm).trans rfl
theorem EncodingFixedBits.movz (rd : RegIx) (hw : BitVec 2) (imm : BitVec 16) : EncodingFixedBits.Statement (.movz rd hw imm) :=
  (fixedBits_encodeIM _ rd hw imm).trans rfl
theorem EncodingFixedBits.movk (rd : RegIx) (hw : BitVec 2) (imm : BitVec 16) : EncodingFixedBits.Statement (.movk rd hw imm) :=
  (fixedBits_encodeIM _ rd hw imm).trans rfl
theorem EncodingFixedBits.b (disp : BitVec 26) : EncodingFixedBits.Statement (.b disp) :=
  (fixedBits_encodeB _ disp).trans rfl
theorem EncodingFixedBits.bl (disp : BitVec 26) : EncodingFixedBits.Statement (.bl disp) :=
  (fixedBits_encodeB _ disp).trans rfl
theorem EncodingFixedBits.bCond (rt : RegIx) (disp : BitVec 19) : EncodingFixedBits.Statement (.bCond rt disp) :=
  (fixedBits_encodeCB _ rt disp).trans rfl
theorem EncodingFixedBits.cbz (rt : RegIx) (disp : BitVec 19) : EncodingFixedBits.Statement (.cbz rt disp) :=
  (fixedBits_encodeCB _ rt disp).trans rfl
theorem EncodingFixedBits.cbnz (rt : RegIx) (disp : BitVec 19) : EncodingFixedBits.Statement (.cbnz rt disp) :=
  (fixedBits_encodeCB _ rt disp).trans rfl
theorem EncodingFixedBits.word (w : Word) : EncodingFixedBits.Statement (.word w) := BitVec.and_zero

end Sys2Proof.Laws
end

