-- ==== Sys2Proof/Laws/Step.lean ====
section
/-! SUPPORT. The inversion lemma of the step: everything it can do, said once. -/

namespace Sys2Proof.Machine

theorem step_of_wf {s : State} (h : tablesWf s.fs s.pt = true) : step s = serveNext s := by simp [step, h]

theorem step_of_illFormed {s : State} (h : tablesWf s.fs s.pt = false) : step s = .refused .illFormedTables := by
  simp [step, h]

/-- When a step answers a next state the tables are well-formed, and either there was no request and nothing changed, or
the oldest request was taken off and one response was given. -/
theorem step_next_cases {s t : State} (h : step s = .next t) :
    tablesWf s.fs s.pt = true ∧
    ((s.requests = [] ∧ t = s) ∨ ∃ q rest r, s.requests = q :: rest ∧ t = (s.withRequests rest).respond r) := by
  cases hw : tablesWf s.fs s.pt with
  | false => rw [step_of_illFormed hw] at h; cases h
  | true =>
    rw [step_of_wf hw] at h
    refine ⟨rfl, ?_⟩
    obtain ⟨hq, e⟩ | ⟨q, rest, r, hq, e⟩ := serveNext_cases s
    · exact .inl ⟨hq, by rw [e] at h; cases h; rfl⟩
    · exact .inr ⟨q, rest, r, hq, by rw [e] at h; cases h; rfl⟩

end Sys2Proof.Machine
end

