-- ==== Sys2Proof/Laws/Tables.lean ====
section
/-! SUPPORT. What a lookup can answer, and what well-formedness of a table pair gives. -/

namespace Sys2Proof

/-- The reference population passes the checks of R25, so the block is built from it (R222). -/
theorem tablesWf_reference : tablesWf referenceFS referencePT = true := by decide

theorem tablesWf_iff (fs : List FSEntry) (pt : List PTEntry) :
    tablesWf fs pt = true ↔ keysUnique fs pt = true ∧ keyLengthsOk pt = true ∧ mnemonicsOk fs pt = true := by
  simp [tablesWf, and_assoc]

/-- A fixed-shamt lookup that answers names an entry with that key. -/
theorem lookupFS_some {fs : List FSEntry} {k : BitVec 17} {mn : Mnemonic} (h : lookupFS fs k = some mn) :
    ∃ e ∈ fs, e.key = k ∧ e.mnemonic = mn := by
  obtain ⟨e, he, hm⟩ := Option.map_eq_some_iff.mp h
  exact ⟨e, List.mem_of_find?_eq_some he, by simpa using List.find?_some he, hm⟩

/-- A fixed-shamt lookup misses exactly when no entry has the key. -/
theorem lookupFS_none {fs : List FSEntry} {k : BitVec 17} : lookupFS fs k = none ↔ ∀ e ∈ fs, e.key ≠ k := by
  simp [lookupFS]

/-- A primary lookup that answers names an entry of that key and length. -/
theorem lookupPT_some {pt : List PTEntry} {n : Nat} {k : BitVec n} {mn : Mnemonic} {f : Format}
    (h : lookupPT pt k = some (mn, f)) :
    ∃ e ∈ pt, e.len = n ∧ e.key.toNat = k.toNat ∧ e.mnemonic = mn ∧ e.format = f := by
  obtain ⟨e, he, hm⟩ := Option.map_eq_some_iff.mp h
  have hk := List.find?_some he
  simp only [Bool.and_eq_true, beq_iff_eq] at hk
  simp only [Prod.mk.injEq] at hm
  exact ⟨e, List.mem_of_find?_eq_some he, hk.1, hk.2, hm.1, hm.2⟩

/-- A primary lookup misses exactly when no entry of the key's length has the key. -/
theorem lookupPT_none {pt : List PTEntry} {n : Nat} {k : BitVec n} :
    lookupPT pt k = none ↔ ∀ e ∈ pt, e.len = n → e.key.toNat ≠ k.toNat := by
  simp [lookupPT]

/-- In a list with distinct images, an element found by its image is the element itself. -/
theorem eq_of_mem_of_nodup_map {α β : Type} {f : α → β} {l : List α} (h : (l.map f).Nodup) {a b : α} (ha : a ∈ l)
    (hb : b ∈ l) (hab : f a = f b) : a = b :=
  List.inj_on_of_nodup_map h ha hb hab

/-- With unique keys, an entry's key looks up that entry (R25(a)). -/
theorem lookupFS_of_mem {fs : List FSEntry} {pt : List PTEntry} (h : keysUnique fs pt = true) {e : FSEntry}
    (he : e ∈ fs) : lookupFS fs e.key = some e.mnemonic := by
  simp only [keysUnique, Bool.and_eq_true, decide_eq_true_eq] at h
  cases hl : lookupFS fs e.key with
  | none => exact absurd rfl (lookupFS_none.mp hl e he)
  | some mn =>
    obtain ⟨e', he', hk, rfl⟩ := lookupFS_some hl
    rw [eq_of_mem_of_nodup_map h.1 he' he hk]

/-- With unique keys, an entry's key looks up that entry's mnemonic and format (R25(a), R66). -/
theorem lookupPT_of_mem {fs : List FSEntry} {pt : List PTEntry} (h : keysUnique fs pt = true) {e : PTEntry}
    (he : e ∈ pt) {n : Nat} {k : BitVec n} (hn : e.len = n) (hk : e.key.toNat = k.toNat) :
    lookupPT pt k = some (e.mnemonic, e.format) := by
  simp only [keysUnique, Bool.and_eq_true, decide_eq_true_eq] at h
  cases hl : lookupPT pt k with
  | none => exact absurd hk (lookupPT_none.mp hl e he hn)
  | some p =>
    obtain ⟨e', he', hn', hk', hm, hf⟩ := lookupPT_some (mn := p.1) (f := p.2) hl
    have := eq_of_mem_of_nodup_map h.2 he' he
      (by simp [PTEntry.bitString, hn, hn', hk, hk'])
    subst this
    rw [hm, hf]

end Sys2Proof
end

