-- ==== Sys2Proof/Tests/Slice0.lean ====
section
/-! SUPPORT. The model's own tests. Expected values come from the spec: the words of test_decode_… are written out field by
field from the encodings R41 to R47 and the keys of each instruction's rule; the lines of test_text_… are the opcode table's
examples and the vectors of 95_test_vectors.md. The witness_… theorems show that the statements' hypotheses are met. -/

namespace Sys2Proof.Tests
open Sys2Proof Sys2Proof.Machine

/- Decoding: one word per constructor, every field different from the others. -/

theorem test_decode_mul : decode 0b10011011000_10011_011111_00110_01001#32 = .mul 9 6 19 := by decide
theorem test_decode_sdiv : decode 0b10011010110_10011_000010_00110_01001#32 = .sdiv 9 6 19 := by decide
theorem test_decode_udiv : decode 0b10011010110_10011_000011_00110_01001#32 = .udiv 9 6 19 := by decide
theorem test_decode_fadds : decode 0b00011110001_10011_001010_00110_01001#32 = .fadds 9 6 19 := by decide
theorem test_decode_faddd : decode 0b00011110011_10011_001010_00110_01001#32 = .faddd 9 6 19 := by decide
theorem test_decode_fcmps : decode 0b00011110001_10011_001000_00110_01001#32 = .fcmps 9 6 19 := by decide
theorem test_decode_fcmpd : decode 0b00011110011_10011_001000_00110_01001#32 = .fcmpd 9 6 19 := by decide
theorem test_decode_fdivs : decode 0b00011110001_10011_000110_00110_01001#32 = .fdivs 9 6 19 := by decide
theorem test_decode_fdivd : decode 0b00011110011_10011_000110_00110_01001#32 = .fdivd 9 6 19 := by decide
theorem test_decode_fmuls : decode 0b00011110001_10011_000010_00110_01001#32 = .fmuls 9 6 19 := by decide
theorem test_decode_fmuld : decode 0b00011110011_10011_000010_00110_01001#32 = .fmuld 9 6 19 := by decide
theorem test_decode_fsubs : decode 0b00011110001_10011_001110_00110_01001#32 = .fsubs 9 6 19 := by decide
theorem test_decode_fsubd : decode 0b00011110011_10011_001110_00110_01001#32 = .fsubd 9 6 19 := by decide
theorem test_decode_add : decode 0b10001011000_10011_100001_00110_01001#32 = .add 9 6 19 33 := by decide
theorem test_decode_adds : decode 0b10101011000_10011_100001_00110_01001#32 = .adds 9 6 19 33 := by decide
theorem test_decode_and : decode 0b10001010000_10011_100001_00110_01001#32 = .and 9 6 19 33 := by decide
theorem test_decode_ands : decode 0b11101010000_10011_100001_00110_01001#32 = .ands 9 6 19 33 := by decide
theorem test_decode_br : decode 0b11010110000_10011_100001_00110_01001#32 = .br 9 6 19 33 := by decide
theorem test_decode_eor : decode 0b11001010000_10011_100001_00110_01001#32 = .eor 9 6 19 33 := by decide
theorem test_decode_lsl : decode 0b11010011011_10011_100001_00110_01001#32 = .lsl 9 6 19 33 := by decide
theorem test_decode_lsr : decode 0b11010011010_10011_100001_00110_01001#32 = .lsr 9 6 19 33 := by decide
theorem test_decode_orr : decode 0b10101010000_10011_100001_00110_01001#32 = .orr 9 6 19 33 := by decide
theorem test_decode_sub : decode 0b11001011000_10011_100001_00110_01001#32 = .sub 9 6 19 33 := by decide
theorem test_decode_subs : decode 0b11101011000_10011_100001_00110_01001#32 = .subs 9 6 19 33 := by decide
theorem test_decode_smulh : decode 0b10011011010_10011_100001_00110_01001#32 = .smulh 9 6 19 33 := by decide
theorem test_decode_umulh : decode 0b10011011110_10011_100001_00110_01001#32 = .umulh 9 6 19 33 := by decide
theorem test_decode_ldur : decode 0b11111000010_100000001_10_00110_01001#32 = .ldur 9 6 257 := by decide
theorem test_decode_ldurb : decode 0b00111000010_100000001_10_00110_01001#32 = .ldurb 9 6 257 := by decide
theorem test_decode_ldurh : decode 0b01111000010_100000001_10_00110_01001#32 = .ldurh 9 6 257 := by decide
theorem test_decode_ldursw : decode 0b10111000100_100000001_10_00110_01001#32 = .ldursw 9 6 257 := by decide
theorem test_decode_ldxr : decode 0b11001000010_100000001_10_00110_01001#32 = .ldxr 9 6 257 := by decide
theorem test_decode_stur : decode 0b11111000000_100000001_10_00110_01001#32 = .stur 9 6 257 := by decide
theorem test_decode_sturb : decode 0b00111000000_100000001_10_00110_01001#32 = .sturb 9 6 257 := by decide
theorem test_decode_sturh : decode 0b01111000000_100000001_10_00110_01001#32 = .sturh 9 6 257 := by decide
theorem test_decode_sturw : decode 0b10111000000_100000001_10_00110_01001#32 = .sturw 9 6 257 := by decide
theorem test_decode_stxr : decode 0b11001000000_100000001_10_00110_01001#32 = .stxr 9 6 257 := by decide
theorem test_decode_ldurs : decode 0b10111100010_100000001_10_00110_01001#32 = .ldurs 9 6 257 := by decide
theorem test_decode_ldurd : decode 0b11111100010_100000001_10_00110_01001#32 = .ldurd 9 6 257 := by decide
theorem test_decode_sturs : decode 0b10111100000_100000001_10_00110_01001#32 = .sturs 9 6 257 := by decide
theorem test_decode_sturd : decode 0b11111100000_100000001_10_00110_01001#32 = .sturd 9 6 257 := by decide
theorem test_decode_addi : decode 0b1001000100_100000000011_00110_01001#32 = .addi 9 6 2051 := by decide
theorem test_decode_addis : decode 0b1011000100_100000000011_00110_01001#32 = .addis 9 6 2051 := by decide
theorem test_decode_andi : decode 0b1001001000_100000000011_00110_01001#32 = .andi 9 6 2051 := by decide
theorem test_decode_andis : decode 0b1111001000_100000000011_00110_01001#32 = .andis 9 6 2051 := by decide
theorem test_decode_eori : decode 0b1101001000_100000000011_00110_01001#32 = .eori 9 6 2051 := by decide
theorem test_decode_orri : decode 0b1011001000_100000000011_00110_01001#32 = .orri 9 6 2051 := by decide
theorem test_decode_subi : decode 0b1101000100_100000000011_00110_01001#32 = .subi 9 6 2051 := by decide
theorem test_decode_subis : decode 0b1111000100_100000000011_00110_01001#32 = .subis 9 6 2051 := by decide
theorem test_decode_movz : decode 0b110100101_10_1000000000000001_01001#32 = .movz 9 2 32769 := by decide
theorem test_decode_movk : decode 0b111100101_10_1000000000000001_01001#32 = .movk 9 2 32769 := by decide
theorem test_decode_b : decode 0b000101_10000000000000000000000011#32 = .b 33554435 := by decide
theorem test_decode_bl : decode 0b100101_10000000000000000000000011#32 = .bl 33554435 := by decide
theorem test_decode_bCond : decode 0b01010100_1000000000000000011_01001#32 = .bCond 9 262147 := by decide
theorem test_decode_cbz : decode 0b10110100_1000000000000000011_01001#32 = .cbz 9 262147 := by decide
theorem test_decode_cbnz : decode 0b10110101_1000000000000000011_01001#32 = .cbnz 9 262147 := by decide
theorem test_decode_word : decode 0b10011011000_00011_000000_00010_00001#32 = .word 0x9B030041 := by decide

/- Well-formedness: the fallback of a known word is the only ill-formed instruction. -/

theorem test_wellFormed_refuses_known_word : (Instr.word 0x8B020020).wellFormed = false := by decide
theorem test_wellFormed_accepts_unknown_word : (Instr.word 0x9B030041).wellFormed = true := by decide

/- Texts. -/

/-- The line of a word under the default tables. -/
def lineOf (w : Word) : String := decodeText referenceFS referencePT w

theorem test_text_mul :
    lineOf 0x9B037C41 = "MUL X1, X2, X3" ∧
    lineOf 0x9B1F7FFF = "MUL X31, X31, X31" := by decide
theorem test_text_sdiv : lineOf 0x9AC30841 = "SDIV X1, X2, X3" := by decide
theorem test_text_udiv : lineOf 0x9AC30C41 = "UDIV X1, X2, X3" := by decide
theorem test_text_fadds : lineOf 0x1E232841 = "FADDS X1, X2, X3" := by decide
theorem test_text_faddd :
    lineOf 0x1E632841 = "FADDD X1, X2, X3" ∧
    lineOf 0x1E602800 = "FADDD X0, X0, X0" := by decide
theorem test_text_fcmps : lineOf 0x1E232041 = "FCMPS X1, X2, X3" := by decide
theorem test_text_fcmpd : lineOf 0x1E632041 = "FCMPD X1, X2, X3" := by decide
theorem test_text_fdivs : lineOf 0x1E231841 = "FDIVS X1, X2, X3" := by decide
theorem test_text_fdivd : lineOf 0x1E631841 = "FDIVD X1, X2, X3" := by decide
theorem test_text_fmuls : lineOf 0x1E230841 = "FMULS X1, X2, X3" := by decide
theorem test_text_fmuld : lineOf 0x1E630841 = "FMULD X1, X2, X3" := by decide
theorem test_text_fsubs : lineOf 0x1E233841 = "FSUBS X1, X2, X3" := by decide
theorem test_text_fsubd : lineOf 0x1E633841 = "FSUBD X1, X2, X3" := by decide
theorem test_text_add :
    lineOf 0x8B030041 = "ADD X1, X2, X3" ∧
    lineOf 0x8B020020 = "ADD X0, X1, X2" ∧
    lineOf 0x8B030441 = "ADD X1, X2, X3, LSL #1" ∧
    lineOf 0x8B1FFFFF = "ADD X31, X31, X31, LSL #63" := by decide
theorem test_text_adds : lineOf 0xAB030041 = "ADDS X1, X2, X3" := by decide
theorem test_text_and : lineOf 0x8A030041 = "AND X1, X2, X3" := by decide
theorem test_text_ands : lineOf 0xEA030041 = "ANDS X1, X2, X3" := by decide
theorem test_text_br :
    lineOf 0xD6030041 = "BR X1, X2, X3" ∧
    lineOf 0xD60003C0 = "BR X0, X30, X0" := by decide
theorem test_text_eor : lineOf 0xCA030041 = "EOR X1, X2, X3" := by decide
theorem test_text_lsl :
    lineOf 0xD3630041 = "LSL X1, X2, X3" ∧
    lineOf 0xD3601041 = "LSL X1, X2, X0, LSL #4" := by decide
theorem test_text_lsr :
    lineOf 0xD3430041 = "LSR X1, X2, X3" ∧
    lineOf 0xD340FC41 = "LSR X1, X2, X0, LSL #63" := by decide
theorem test_text_orr :
    lineOf 0xAA030041 = "ORR X1, X2, X3" ∧
    lineOf 0xAA0C09AE = "ORR X14, X13, X12, LSL #2" := by decide
theorem test_text_sub :
    lineOf 0xCB030041 = "SUB X1, X2, X3" ∧
    lineOf 0xCB090129 = "SUB X9, X9, X9" := by decide
theorem test_text_subs : lineOf 0xEB030041 = "SUBS X1, X2, X3" := by decide
theorem test_text_smulh :
    lineOf 0x9B430041 = "SMULH X1, X2, X3" ∧
    lineOf 0x9B437C41 = "SMULH X1, X2, X3, LSL #31" := by decide
theorem test_text_umulh :
    lineOf 0x9BC30041 = "UMULH X1, X2, X3" ∧
    lineOf 0x9BC37C41 = "UMULH X1, X2, X3, LSL #31" := by decide
theorem test_text_ldur :
    lineOf 0xF8408041 = "LDUR X1, [X2, #8]" ∧
    lineOf 0xF85FF041 = "LDUR X1, [X2, #511]" ∧
    lineOf 0xF84003FF = "LDUR X31, [X31, #0]" := by decide
theorem test_text_ldurb : lineOf 0x38408041 = "LDURB X1, [X2, #8]" := by decide
theorem test_text_ldurh :
    lineOf 0x78408041 = "LDURH X1, [X2, #8]" ∧
    lineOf 0x785FE003 = "LDURH X3, [X0, #510]" := by decide
theorem test_text_ldursw :
    lineOf 0xB8808041 = "LDURSW X1, [X2, #8]" ∧
    lineOf 0xB89FF804 = "LDURSW X4, [X0, #511]" := by decide
theorem test_text_ldxr : lineOf 0xC8408041 = "LDXR X1, [X2, #8]" := by decide
theorem test_text_stur :
    lineOf 0xF8008041 = "STUR X1, [X2, #8]" ∧
    lineOf 0xF8008C41 = "STUR X1, [X2, #8]" := by decide
theorem test_text_sturb : lineOf 0x38008041 = "STURB X1, [X2, #8]" := by decide
theorem test_text_sturh : lineOf 0x78008041 = "STURH X1, [X2, #8]" := by decide
theorem test_text_sturw : lineOf 0xB8008041 = "STURW X1, [X2, #8]" := by decide
theorem test_text_stxr : lineOf 0xC8008041 = "STXR X1, [X2, #8]" := by decide
theorem test_text_ldurs : lineOf 0xBC408041 = "LDURS X1, [X2, #8]" := by decide
theorem test_text_ldurd : lineOf 0xFC408041 = "LDURD X1, [X2, #8]" := by decide
theorem test_text_sturs : lineOf 0xBC008041 = "STURS X1, [X2, #8]" := by decide
theorem test_text_sturd : lineOf 0xFC008041 = "STURD X1, [X2, #8]" := by decide
theorem test_text_addi :
    lineOf 0x91019041 = "ADDI X1, X2, #100" ∧
    lineOf 0x91002C27 = "ADDI X7, X1, #11" ∧
    lineOf 0x913FFFFF = "ADDI X31, X31, #4095" := by decide
theorem test_text_addis : lineOf 0xB1019041 = "ADDIS X1, X2, #100" := by decide
theorem test_text_andi : lineOf 0x92019041 = "ANDI X1, X2, #100" := by decide
theorem test_text_andis : lineOf 0xF2019041 = "ANDIS X1, X2, #100" := by decide
theorem test_text_eori : lineOf 0xD2019041 = "EORI X1, X2, #100" := by decide
theorem test_text_orri : lineOf 0xB2019041 = "ORRI X1, X2, #100" := by decide
theorem test_text_subi :
    lineOf 0xD1019041 = "SUBI X1, X2, #100" ∧
    lineOf 0xD1002C27 = "SUBI X7, X1, #11" ∧
    lineOf 0xD1000000 = "SUBI X0, X0, #0" := by decide
theorem test_text_subis : lineOf 0xF1019041 = "SUBIS X1, X2, #100" := by decide
theorem test_text_movz :
    lineOf 0xD2A24681 = "MOVZ X1, #305397760" ∧
    lineOf 0xD2800000 = "MOVZ X0, #0" ∧
    lineOf 0xD2E00000 = "MOVZ X0, #0" ∧
    lineOf 0xD2FFFFFF = "MOVZ X31, #18446462598732840960" ∧
    lineOf 0xD2BFFFE9 = "MOVZ X9, #4294901760" := by decide
theorem test_text_movk :
    lineOf 0xF2A24681 = "MOVK X1, #305397760" ∧
    lineOf 0xF2C00025 = "MOVK X5, #4294967296" := by decide
theorem test_text_b :
    lineOf 0x17FFFFFD = "B #-12" ∧
    lineOf 0x17FFFFFF = "B #-4" ∧
    lineOf 0x14000000 = "B #0" ∧
    lineOf 0x14000001 = "B #4" ∧
    lineOf 0x15FFFFFF = "B #134217724" ∧
    lineOf 0x16000000 = "B #-134217728" := by decide
theorem test_text_bl :
    lineOf 0x97FFFFFD = "BL #-12" ∧
    lineOf 0x94000100 = "BL #1024" := by decide
theorem test_text_bCond :
    lineOf 0x540000A1 = "B.COND X1, #20" ∧
    lineOf 0x54FFFFCB = "B.COND X11, #-8" := by decide
theorem test_text_cbz :
    lineOf 0xB40000A1 = "CBZ X1, #20" ∧
    lineOf 0xB4000000 = "CBZ X0, #0" ∧
    lineOf 0xB4FFFFE1 = "CBZ X1, #-4" := by decide
theorem test_text_cbnz :
    lineOf 0xB50000A1 = "CBNZ X1, #20" ∧
    lineOf 0xB57FFFFF = "CBNZ X31, #1048572" ∧
    lineOf 0xB5800002 = "CBNZ X2, #-1048576" := by decide
theorem test_text_word :
    lineOf 0x00000000 = ".word 0x00000000    // unknown" ∧
    lineOf 0xFFFFFFFF = ".word 0xFFFFFFFF    // unknown" ∧
    lineOf 0xD4000001 = ".word 0xD4000001    // unknown" ∧
    lineOf 0x0000ABCD = ".word 0x0000ABCD    // unknown" ∧
    lineOf 0x9AC30441 = ".word 0x9AC30441    // unknown" ∧
    lineOf 0x1E230041 = ".word 0x1E230041    // unknown" := by decide

/- Extractor vectors X1 to X6 (95_test_vectors.md). -/

theorem test_extractor_vectors :
    sext 0x2000000#26 = -33554432 ∧ dispB 0x2000000#26 = -134217728 ∧ sext 0x1FFFFFF#26 = 33554431 ∧
    dispB 0x1FFFFFF#26 = 134217724 ∧ sext 0x40000#19 = -262144 ∧ dispCB 0x40000#19 = -1048576 ∧
    sext 0x7FFFF#19 = -1 ∧ dispCB 0x7FFFF#19 = -4 ∧ imValue 1 0x1234 = 305397760 ∧
    imValue 1 0xFFFF = 4294901760 := by decide

/- Normalizer vectors N1 to N13. -/

theorem test_normalizeHex_accepts :
    normalizeHex "0x91002c27" = .ok 0x91002C27 ∧ normalizeHex "2C27" = .ok 0x2C27 ∧
    normalizeHex "0X" = .ok 0 ∧ normalizeHex "" = .ok 0 := by decide
theorem test_normalizeHex_refuses :
    normalizeHex "xyz" = .error .invalidHex ∧ normalizeHex "123456789" = .error .invalidHex ∧
    normalizeHex " 8B020020" = .error .invalidHex ∧ normalizeHex "0x0x1" = .error .invalidHex := by decide
theorem test_normalizeBinary_accepts :
    normalizeBinary "1" = .ok 1 ∧ normalizeBinary "101" = .ok 5 ∧
    normalizeBinary "0000000010001011000000100000000000100000" = .ok 0x8B020020 := by decide
theorem test_normalizeBinary_refuses :
    normalizeBinary "" = .error .invalidBinary ∧ normalizeBinary "102" = .error .invalidBinary ∧
    normalizeBinary "100000000000000000000000000000000" = .error .invalidBinary := by decide

/- Building a block: one ill-formed pair for each check of R25. -/

theorem test_powerOn_refuses_each_check :
    tablesWf [⟨0x12345, "A"⟩, ⟨0x12345, "B"⟩] [] = false ∧
    tablesWf [] [⟨11, 5, "A", .r⟩, ⟨11, 5, "B", .d⟩] = false ∧
    tablesWf [] [⟨10, 5, "A", .r⟩] = false ∧ tablesWf [] [⟨8, 5, "A", .b⟩] = false ∧
    tablesWf [⟨5, ""⟩] [] = false ∧ tablesWf [] [⟨8, 5, "B.cond", .cb⟩] = false := by decide

/- One step, from reset with one request. -/

/-- The state a word request is asked of: the block after reset. -/
def asked (w : Word) : State := State.reset.issueFirst w

/-- The newest response of a step's next state. -/
def newest : Host.Outcome State Fault Refusal → Option Response
  | .next s => s.responses.getLast?
  | .fault _ => none
  | .refused _ => none

theorem test_step_word : newest (step (asked 0x9B037C41)) = some (.line "MUL X1, X2, X3") := by decide
theorem test_step_fetch : newest (step (State.reset.withFetchWord 32 0x17FFFFFF)) = some (.line "B #-4") := by decide
theorem test_fetch_over_32_bits :
    (State.reset.withFetchWord 40 0xFF14000001).requests = [.word 0x14000001] ∧
    decodeTableWord 40 0xFF14000001 = none := by decide
theorem test_fetch_under_32_bits :
    (State.reset.withFetchWord 8 0x14000001).requests = [.word 0x00000001] ∧
    decodeTableWord 8 0x14000001 = some (.word 0x00000001) := by decide
theorem test_step_hexToken :
    newest (step { State.reset with requests := [.hexToken "91002c27"] }) = some (.line "ADDI X7, X1, #11") := by
  decide
theorem test_step_badToken :
    newest (step { State.reset with requests := [.hexToken "xyz"] }) = some .invalidHex ∧
    newest (step { State.reset with requests := [.binaryToken "102"] }) = some .invalidBinary := by decide

/- Witnesses: for every statement with hypotheses, concrete states and operands that meet them all together, for each
clause where it has several. -/

theorem reference_wf : tablesWf State.reset.fs State.reset.pt = true := by decide

theorem asked_isReference (w : Word) : (asked w).isReference ∧ (asked w).requests = [.word w] := ⟨⟨rfl, rfl⟩, rfl⟩

theorem witness_DecodeOfEncodeIsTheInstruction :
    (Instr.ldur 31 0 511).wellFormed = true ∧ (Instr.word 0).wellFormed = true := by decide

theorem witness_EncodeOfDecodeRecoversTheWord :
    (decode 0xF8008C41).toRecord = .d "STUR" 1 2 8 ∧ (decode 0x8B1FFFFF).toRecord = .r "ADD" 31 31 31 63 := by decide

theorem witness_MatchAndMaskSayTheKey :
    ∀ n ∈ [11, 10, 9, 6, 8], ∃ e ∈ referencePT, e.len = n := by decide

theorem witness_IntegerMultiplyDivideWordsRender :
    ([0x9B007C00#32, 0x9AC00800#32, 0x9AC00C00#32].all fun p =>
      [p, p ||| 0x001F03FF#32].all fun w => w &&& 0xFFE0FC00#32 == p) = true ∧
    ∀ w, (asked w).isReference ∧ (asked w).requests = [.word w] :=
  ⟨by decide, asked_isReference⟩

theorem witness_FloatingPointWordsRender :
    ([0x1E202800#32, 0x1E602800#32, 0x1E202000#32, 0x1E602000#32, 0x1E201800#32, 0x1E601800#32,
      0x1E200800#32, 0x1E600800#32, 0x1E203800#32, 0x1E603800#32].all fun p =>
      [p, p ||| 0x001F03FF#32].all fun w => w &&& 0xFFE0FC00#32 == p) = true ∧
    ∀ w, (asked w).isReference ∧ (asked w).requests = [.word w] :=
  ⟨by decide, asked_isReference⟩

theorem witness_ArithmeticLogicWordsRender :
    ([0x8B000000#32, 0xAB000000#32, 0x8A000000#32, 0xEA000000#32, 0xCA000000#32, 0xAA000000#32,
      0xCB000000#32, 0xEB000000#32].all fun p =>
      [p, p ||| 0x001FFFFF#32].all fun w => w &&& 0xFFE00000#32 == p) = true ∧
    ∀ w, (asked w).isReference ∧ (asked w).requests = [.word w] :=
  ⟨by decide, asked_isReference⟩

theorem witness_ShiftBranchHighMultiplyWordsRender :
    ([0xD6000000#32, 0xD3600000#32, 0xD3400000#32, 0x9B400000#32, 0x9BC00000#32].all fun p =>
      [p, p ||| 0x001FFFFF#32].all fun w => w &&& 0xFFE00000#32 == p) = true ∧
    ∀ w, (asked w).isReference ∧ (asked w).requests = [.word w] :=
  ⟨by decide, asked_isReference⟩

theorem witness_LoadWordsRender :
    ([0xF8400000#32, 0x38400000#32, 0x78400000#32, 0xB8800000#32, 0xC8400000#32, 0xBC400000#32,
      0xFC400000#32].all fun p =>
      [p, p ||| 0x001FFFFF#32].all fun w => w &&& 0xFFE00000#32 == p) = true ∧
    ∀ w, (asked w).isReference ∧ (asked w).requests = [.word w] :=
  ⟨by decide, asked_isReference⟩

theorem witness_StoreWordsRender :
    ([0xF8000000#32, 0x38000000#32, 0x78000000#32, 0xB8000000#32, 0xC8000000#32, 0xBC000000#32,
      0xFC000000#32].all fun p =>
      [p, p ||| 0x001FFFFF#32].all fun w => w &&& 0xFFE00000#32 == p) = true ∧
    ∀ w, (asked w).isReference ∧ (asked w).requests = [.word w] :=
  ⟨by decide, asked_isReference⟩

theorem witness_ImmediateWordsRender :
    ([0x91000000#32, 0xB1000000#32, 0x92000000#32, 0xF2000000#32, 0xD2000000#32, 0xB2000000#32,
      0xD1000000#32, 0xF1000000#32].all fun p =>
      [p, p ||| 0x003FFFFF#32].all fun w => w &&& 0xFFC00000#32 == p) = true ∧
    ∀ w, (asked w).isReference ∧ (asked w).requests = [.word w] :=
  ⟨by decide, asked_isReference⟩

theorem witness_MoveWideWordsRender :
    ([0xD2800000#32, 0xF2800000#32].all fun p =>
      [p, p ||| 0x007FFFFF#32].all fun w => w &&& 0xFF800000#32 == p) = true ∧
    ∀ w, (asked w).isReference ∧ (asked w).requests = [.word w] :=
  ⟨by decide, asked_isReference⟩

theorem witness_BranchWordsRender :
    ([0x14000000#32, 0x94000000#32].all fun p =>
      [p, p ||| 0x01FFFFFF#32, p ||| 0x02000000#32].all fun w => w &&& 0xFC000000#32 == p) = true ∧
    ∀ w, (asked w).isReference ∧ (asked w).requests = [.word w] :=
  ⟨by decide, asked_isReference⟩

theorem witness_ConditionalBranchWordsRender :
    ([0x54000000#32, 0xB4000000#32, 0xB5000000#32].all fun p =>
      [p, p ||| 0x007FFFFF#32, p ||| 0x00800000#32].all fun w => w &&& 0xFF000000#32 == p) = true ∧
    ∀ w, (asked w).isReference ∧ (asked w).requests = [.word w] :=
  ⟨by decide, asked_isReference⟩

theorem witness_UnknownWordsRenderTheFallback :
    ([0x00000000#32, 0xFFFFFFFF#32].all fun w => !isKnownWord referenceFS referencePT w) = true ∧
    ∀ w, (asked w).isReference ∧ (asked w).requests = [.word w] :=
  ⟨by decide, asked_isReference⟩

theorem witness_FixedShamtOpcodeWithOtherShamtIsUnknown :
    ([0x9B030041#32, 0x9AC30441#32, 0x1E20FC00#32, 0x1E600000#32].all fun w =>
      [0b10011011000, 0b10011010110, 0b00011110001, 0b00011110011].contains (w.toNat / 2 ^ 21) &&
      referenceFS.all fun e => w.toNat / 2 ^ 21 * 2 ^ 6 + w.toNat / 2 ^ 10 % 2 ^ 6 != e.key.toNat) = true := by
  decide

/-- Each clause of the cascade has a word that takes it under the default tables, one for each step. -/
theorem witness_CascadeTakesTheLowestStep :
    let noFs : Word → Prop := fun w => ∀ e ∈ referenceFS, e.hits w = false
    let misses : Word → Nat → Prop := fun w n => ∀ e ∈ referencePT, e.len = n → e.hits w = false
    let hit : Word → Nat → Prop := fun w n => ∃ e ∈ referencePT, e.len = n ∧ e.hits w = true
    (∃ e ∈ referenceFS, e.hits 0x9B037C41#32 = true) ∧
    (noFs 0x8B030041#32 ∧ hit 0x8B030041#32 11) ∧ (noFs 0xF8408041#32 ∧ hit 0xF8408041#32 11) ∧
    (noFs 0x91019041#32 ∧ misses 0x91019041#32 11 ∧ hit 0x91019041#32 10) ∧
    (noFs 0xD2A24681#32 ∧ misses 0xD2A24681#32 11 ∧ misses 0xD2A24681#32 10 ∧ hit 0xD2A24681#32 9) ∧
    (noFs 0x17FFFFFD#32 ∧ (∀ n ∈ [11, 10, 9], misses 0x17FFFFFD#32 n) ∧ hit 0x17FFFFFD#32 6) ∧
    (noFs 0x540000A1#32 ∧ (∀ n ∈ [11, 10, 9, 6], misses 0x540000A1#32 n) ∧ hit 0x540000A1#32 8) ∧
    (noFs 0xD4000001#32 ∧ ∀ n ∈ [11, 10, 9, 6, 8], misses 0xD4000001#32 n) := by decide

/-- A well-formed pair in which the word 0x9B037C41 matches an entry of every step. -/
def overlapFS : List FSEntry := [⟨0b10011011000_011111#17, "F"⟩]

/-- The primary entries of that pair, in cascade order. -/
def overlapPT : List PTEntry :=
  [⟨11, 0b10011011000#11, "R", .r⟩, ⟨10, 0b1001101100#10, "I", .i⟩, ⟨9, 0b100110110#9, "IM", .im⟩,
   ⟨6, 0b100110#6, "B", .b⟩, ⟨8, 0b10011011#8, "CB", .cb⟩]

/-- Where steps meet: the word matches an entry of each of the six, and the output is that of the lowest-numbered one
left as the entries before it are taken out (R61, R62, R64). -/
theorem witness_CascadeTakesTheLowestStep_overlap :
    tablesWf overlapFS overlapPT = true ∧
    (overlapFS.all (·.hits 0x9B037C41#32) && overlapPT.all (·.hits 0x9B037C41#32)) = true ∧
    decodeText overlapFS overlapPT 0x9B037C41#32 = "F X1, X2, X3" ∧
    decodeText [] overlapPT 0x9B037C41#32 = "R X1, X2, X3, LSL #31" ∧
    decodeText [] (overlapPT.drop 1) 0x9B037C41#32 = "I X1, X2, #223" ∧
    decodeText [] (overlapPT.drop 2) 0x9B037C41#32 = "IM X1, #7138" ∧
    decodeText [] (overlapPT.drop 3) 0x9B037C41#32 = "B #-66195196" ∧
    decodeText [] (overlapPT.drop 4) 0x9B037C41#32 = "CB X1, #28552" ∧
    decodeText [] (overlapPT.drop 5) 0x9B037C41#32 = ".word 0x9B037C41    // unknown" := by decide

theorem witness_OneEntryRendersDistinctWordsDistinctly :
    (∃ e ∈ referenceFS, e.hits 0x9B037C41#32 = true ∧ e.hits 0x9B037C42#32 = true) ∧
    (∃ e ∈ referencePT, e.format = .i ∧ e.hits 0x91000000#32 = true ∧ e.hits 0x913FFFFF#32 = true) ∧
    (∃ e ∈ referencePT, e.format = .b ∧ e.hits 0x15FFFFFF#32 = true ∧ e.hits 0x16000000#32 = true) ∧
    (∃ e ∈ referencePT, e.format = .cb ∧ e.hits 0xB57FFFFF#32 = true ∧ e.hits 0xB5800002#32 = true) ∧
    (∃ e ∈ referencePT, e.format = .r ∧ e.hits 0x8B1FFFFF#32 = true) ∧
    (∃ e ∈ referencePT, e.format = .d ∧ e.hits 0xF8008C41#32 = true ∧ e.hits 0xF8008041#32 = true) ∧
    (∃ e ∈ referencePT, e.format = .im ∧ e.hits 0xD2800000#32 = true ∧ e.hits 0xD2E00000#32 = true) ∧
    lineOf 0xF8008C41 = lineOf 0xF8008041 ∧ lineOf 0xD2800000 = lineOf 0xD2E00000 := by decide

theorem witness_MoveWideValueIsExact : (1#16) ≠ 0 ∧ imValue 3 1 = imValue 3 1 := by decide

theorem witness_DecimalTextReadsBack : 0 < 1 ∧ dec 10 = "10" ∧ (-4 : Int) < 0 ∧ dec (-4) = "-4" := by decide

theorem witness_RegisterTextNamesTheRegister : reg 31 = reg 31 ∧ reg 30 ≠ reg 31 := by decide

theorem witness_StepRunsTheDecodedInstruction :
    (asked 0x8B020020).isReference ∧ (asked 0x8B020020).requests = [.word 0x8B020020] := asked_isReference _

theorem witness_StepAnswersTheOldestRequest :
    tablesWf (asked 0).fs (asked 0).pt = true ∧ (asked 0).requests = [.word 0] := by decide

theorem witness_StepWithoutRequestIsIdle :
    tablesWf State.reset.fs State.reset.pt = true ∧ State.reset.requests = [] := by decide

theorem witness_IllFormedTablesAreRefused :
    State.powerOn referenceFS referencePT = .next State.reset ∧
    State.powerOn [] [⟨10, 5, "A", .r⟩] = .refused .illFormedTables := ⟨by rfl, by rfl⟩

theorem witness_StepRefusesIllFormedTables :
    step { State.reset with pt := [⟨10, 5, "A", .r⟩] } = .refused .illFormedTables ∧
    (11 : Nat) ≠ Format.keyLength .i ∧ mnemonicOk "b" = false ∧ ¬ [5#17, 5#17].Nodup ∧
    ¬ [(⟨11, 5, "A", .r⟩ : PTEntry), ⟨11, 5, "B", .d⟩].Pairwise
      (fun a b => ¬ (a.len = b.len ∧ a.key.toNat = b.key.toNat)) :=
  ⟨by rfl, by decide, by decide, by decide, by decide⟩

theorem witness_TablesAreNeverWritten :
    (∃ t, exec (.mul 1 2 3) State.reset = .next t) ∧ (∃ t, step State.reset = .next t) ∧
    ∃ t, Sys2Proof.core.run 2 State.reset = .next t :=
  ⟨⟨_, rfl⟩, ⟨State.reset, by rfl⟩, ⟨State.reset, by rfl⟩⟩

theorem witness_InvariantIsKeptByEveryStep :
    Inv (asked 0x17FFFFFF) ∧ newest (step (asked 0x17FFFFFF)) = some (.line "B #-4") :=
  ⟨⟨reference_wf, fun _ h => absurd h List.not_mem_nil⟩, by decide⟩

theorem witness_InvariantHoldsAtReset : State.powerOn referenceFS referencePT = .next State.reset := by rfl

theorem witness_EveryWordGetsANonEmptyLine : tablesWf referenceFS referencePT = true ∧ tablesWf [] [] = true := by
  decide

theorem witness_EveryRunIsSafe : tablesWf State.reset.fs State.reset.pt = true := reference_wf

theorem witness_RunAnswersEveryRequestInOrder :
    tablesWf (asked 0x8B020020).fs (asked 0x8B020020).pt = true ∧ (asked 0x8B020020).requests.length = 1 := by decide

theorem witness_RequestOrderDoesNotMatter :
    tablesWf referenceFS referencePT = true ∧
    [Request.word 0, .hexToken "xyz"].Perm [Request.hexToken "xyz", .word 0] :=
  ⟨by decide, List.Perm.swap _ _ _⟩

theorem witness_ResponseIgnoresHistory :
    let s : State := asked 0x14000000
    let s' : State := { asked 0x14000000 with
      requests := [.word 0x14000000, .word 0], responses := [.invalidHex] }
    tablesWf s.fs s.pt = true ∧ s'.fs = s.fs ∧ s'.pt = s.pt ∧ s.requests = [.word 0x14000000] ∧
      s'.requests = [.word 0x14000000, .word 0] := by decide

theorem witness_HexTokensAcceptedExactly :
    normalizeHex "0xFFFFFFFF" = .ok 0xFFFFFFFF ∧ normalizeHex "000000000" = .error .invalidHex := by decide

theorem witness_HexTokenPrefixIsOptional :
    "0000abCD".toList.length = 8 ∧ normalizeHex "0000abCD" = .ok 0xABCD := by decide

theorem witness_BinaryTokensAcceptedExactly :
    normalizeBinary "11111111111111111111111111111111" = .ok 0xFFFFFFFF ∧
    normalizeBinary "100000000000000000000000000000000" = .error .invalidBinary := by decide

theorem rejected_hex : normalizeHex "xyz" = .error .invalidHex := by decide
theorem rejected_binary : normalizeBinary "" = .error .invalidBinary := by decide

theorem witness_TokensAreServedAsTheirWords :
    normalizeHex "8B020020" = .ok 0x8B020020 ∧ normalizeBinary "1" = .ok 1 ∧ (∀ w, normalizeHex "xyz" ≠ .ok w) ∧
    (∀ w, normalizeBinary "" ≠ .ok w) ∧ tablesWf State.reset.fs State.reset.pt = true :=
  ⟨by decide, by decide, by simp [rejected_hex], by simp [rejected_binary], reference_wf⟩

end Sys2Proof.Tests
end

/-! ## Serving a request: the step as the block's function -/

namespace Sys2Proof

/-- The table entry a known record comes from, as its format and mnemonic: no format tag for an entry of the fixed-shamt
table (R22, R23), no entry at all for an unknown word. -/
@[simp] def Record.source : Record → Option (Option Format × Mnemonic)
  | .fixedShamt mn _ _ _ => some (none, mn)
  | .r mn _ _ _ _ => some (some .r, mn)
  | .d mn _ _ _ => some (some .d, mn)
  | .i mn _ _ _ => some (some .i, mn)
  | .im mn _ _ _ => some (some .im, mn)
  | .b mn _ => some (some .b, mn)
  | .cb mn _ _ => some (some .cb, mn)
  | .unknown _ => none

/-- The cascade takes a record's format and mnemonic from an entry (R66): what holds of every entry holds of them. -/
theorem source_classify_all {P : Option Format × Mnemonic → Bool} {fs : List FSEntry} {pt : List PTEntry}
    (hfs : ∀ e ∈ fs, P (none, e.mnemonic) = true) (hpt : ∀ e ∈ pt, P (some e.format, e.mnemonic) = true)
    (w : Word) :
    (classify fs pt w).source.all P = true := by
  have hlookup {n : Nat} {k : BitVec n} {mn : Mnemonic} {f : Format} (hl : lookupPT pt k = some (mn, f)) :
      P (some f, mn) = true := by
    obtain ⟨e, he, -, -, rfl, rfl⟩ := lookupPT_some hl
    exact hpt e he
  obtain h | h | h | h | h | h | h := classify_cases fs pt w
  · obtain ⟨mn, hl, hr⟩ := probeFixedShamt_some h
    obtain ⟨e, he, -, rfl⟩ := lookupFS_some hl
    rw [hr]; exact hfs e he
  · obtain ⟨mn, hl, hr⟩ | ⟨mn, hl, hr⟩ := probe11_some h <;> (rw [hr]; exact hlookup hl)
  · obtain ⟨mn, hl, hr⟩ := probe10_some h
    rw [hr]; exact hlookup hl
  · obtain ⟨mn, hl, hr⟩ := probe9_some h
    rw [hr]; exact hlookup hl
  · obtain ⟨mn, hl, hr⟩ := probe6_some h
    rw [hr]; exact hlookup hl
  · obtain ⟨mn, hl, hr⟩ := probe8_some h
    rw [hr]; exact hlookup hl
  · rw [h]; rfl

/-- The format and mnemonic name a row of the opcode table (R51). -/
def isRow : Option Format × Mnemonic → Bool
  | (none, mn) => (fixedShamtNames.lookup mn).isSome
  | (some .r, mn) => (rNames.lookup mn).isSome
  | (some .d, mn) => (dNames.lookup mn).isSome
  | (some .i, mn) => (iNames.lookup mn).isSome
  | (some .im, mn) => (imNames.lookup mn).isSome
  | (some .b, mn) => (bNames.lookup mn).isSome
  | (some .cb, mn) => (cbNames.lookup mn).isSome

/-- A record stands for an instruction exactly when it is unknown or comes from a row of the opcode table. -/
theorem ofRecord_isSome (r : Record) : (Instr.ofRecord r).isSome = r.source.all isRow := by
  cases r <;> simp [Instr.ofRecord, isRow]

/-- Every entry of the reference tables is a row of the opcode table, so every record they give is an instruction's. -/
theorem ofRecord_classify_isSome (w : Word) :
    (Instr.ofRecord (classify referenceFS referencePT w)).isSome = true := by
  rw [ofRecord_isSome]
  exact source_classify_all (by decide) (by decide) w

/-- The decoder loses nothing: the decoded instruction's record is the cascade's record. -/
theorem toRecord_decode (w : Word) : (decode w).toRecord = classify referenceFS referencePT w := by
  obtain ⟨i, hi⟩ := Option.isSome_iff_exists.mp (ofRecord_classify_isSome w)
  rw [decode_of_ofRecord hi, Instr.toRecord_of_ofRecord hi]

end Sys2Proof

namespace Sys2Proof.Machine

/-- Serving a request adds the response that the block's function gives it, and changes nothing else (R28, R60, R189). -/
theorem serve_eq (q : Request) (s : State) : serve q s = .next (s.respond (answer s.fs s.pt q)) := by
  unfold serve answer
  cases requestWord q with
  | ok w => exact runRecord_eq _ s
  | error e => cases e <;> rfl

/-- With well-formed tables and a request, a step takes the oldest request off and gives its answer. -/
theorem step_of_requests_cons {s : State} {q : Request} {rest : List Request}
    (hwf : tablesWf s.fs s.pt = true) (hq : s.requests = q :: rest) :
    step s = .next ((s.withRequests rest).respond (answer s.fs s.pt q)) := by
  simp [step_of_wf hwf, serveNext, hq, serve_eq]

/-- With well-formed tables and no request, a step changes nothing. -/
theorem step_of_requests_nil {s : State} (hwf : tablesWf s.fs s.pt = true) (hq : s.requests = []) :
    step s = .next s := by
  simp [step_of_wf hwf, serveNext, hq]

/-- When a step answers a next state, either nothing was requested and nothing changed, or the oldest request was taken
off and given the response of the block's function. -/
theorem step_next_answer {s t : State} (h : step s = .next t) :
    tablesWf s.fs s.pt = true ∧ ((s.requests = [] ∧ t = s) ∨
      ∃ q rest, s.requests = q :: rest ∧ t = (s.withRequests rest).respond (answer s.fs s.pt q)) := by
  obtain ⟨hwf, -⟩ := step_next_cases h
  refine ⟨hwf, ?_⟩
  cases hq : s.requests with
  | nil =>
    rw [step_of_requests_nil hwf hq] at h
    cases h
    exact .inl ⟨rfl, rfl⟩
  | cons q rest =>
    rw [step_of_requests_cons hwf hq] at h
    cases h
    exact .inr ⟨q, rest, rfl, rfl⟩

/-- Settles O39. -/
theorem stepAnswersTheOldestRequest : Obligations.StepAnswersTheOldestRequest :=
  fun _ _ _ hwf hq => step_of_requests_cons hwf hq

/-- Settles O51: both steps add the answer of the request, which reads nothing of a state but its tables. -/
theorem responseIgnoresHistory : Obligations.ResponseIgnoresHistory := by
  intro s s' q rest rest' hwf hfs hpt hq hq'
  have hwf' : tablesWf s'.fs s'.pt = true := by rw [hfs, hpt, hwf]
  refine ⟨answer s.fs s.pt q, step_of_requests_cons hwf hq, ?_⟩
  rw [← hfs, ← hpt]
  exact step_of_requests_cons hwf' hq'

/-- Settles O38: both sides give the line of the record that the reference tables give the word. -/
theorem stepRunsTheDecodedInstruction : Obligations.StepRunsTheDecodedInstruction := by
  intro s w rest ⟨hfs, hpt⟩ hq
  have hwf : tablesWf s.fs s.pt = true := by rw [hfs, hpt, tablesWf_reference]
  have hans : answer s.fs s.pt (.word w) = .line (render (decode w).toRecord) := by
    rw [toRecord_decode, hfs, hpt]; rfl
  rw [step_of_requests_cons hwf hq, hans, exec_eq]
  rfl

/-- Settles O40. -/
theorem stepWithoutRequestIsIdle : Obligations.StepWithoutRequestIsIdle :=
  fun _ hwf hq => step_of_requests_nil hwf hq

/-! ## Runs: an invariant of every step holds along a run -/

/-- A run of n + 1 steps that ends in a state is a step followed by a run of n steps that ends there. -/
theorem run_succ_next {n : Nat} {s t : State} (h : Sys2Proof.core.run (n + 1) s = .next t) :
    ∃ u, step s = .next u ∧ Sys2Proof.core.run n u = .next t := by
  simp only [Host.Core.run] at h
  split at h
  · exact ⟨_, ‹_›, h⟩
  all_goals cases h

/-- A property that every step keeps holds at the end of every run. -/
theorem run_keeps {P : State → Prop} (hstep : ∀ s t, P s → step s = .next t → P t) :
    ∀ (n : Nat) (s t : State), P s → Sys2Proof.core.run n s = .next t → P t := by
  intro n
  induction n with
  | zero => intro s t hs h; cases h; exact hs
  | succ n ih =>
    intro s t hs h
    obtain ⟨u, hu, hrun⟩ := run_succ_next h
    exact ih u t (hstep s u hs hu) hrun

/-- A step leaves both tables as they are (R27). -/
theorem step_keeps_tables {s t : State} (h : step s = .next t) : t.fs = s.fs ∧ t.pt = s.pt := by
  obtain ⟨-, ⟨-, rfl⟩ | ⟨q, rest, r, -, rfl⟩⟩ := step_next_cases h
  · exact ⟨rfl, rfl⟩
  · exact ⟨rfl, rfl⟩

/-- Settles O43: exec only adds a response, a step only takes a request off and adds a response, and a run is by
induction on its steps. -/
theorem tablesAreNeverWritten : Obligations.TablesAreNeverWritten := by
  refine ⟨fun i s t h => ?_, fun _ _ => step_keeps_tables, fun n s t => ?_⟩
  · rw [exec_eq] at h
    cases h
    exact ⟨rfl, rfl⟩
  · refine run_keeps (P := fun u => u.fs = s.fs ∧ u.pt = s.pt) (fun u v ⟨hfs, hpt⟩ huv => ?_) n s t ⟨rfl, rfl⟩
    obtain ⟨hfs', hpt'⟩ := step_keeps_tables huv
    exact ⟨hfs'.trans hfs, hpt'.trans hpt⟩

end Sys2Proof.Machine

/-! ## The checks of R25, one by one, and the refusal of an ill-formed pair -/

namespace Sys2Proof

/-- Check (a) of R25: no two entries of one table have the same key; a primary key is its length and its value. -/
theorem keysUnique_iff (fs : List FSEntry) (pt : List PTEntry) :
    keysUnique fs pt = true ↔ fs.Pairwise (fun a b => a.key ≠ b.key) ∧
      pt.Pairwise (fun a b => ¬ (a.len = b.len ∧ a.key.toNat = b.key.toNat)) := by
  simp [keysUnique, List.Nodup, List.pairwise_map, PTEntry.bitString]

theorem keyLengthsOk_iff (pt : List PTEntry) :
    keyLengthsOk pt = true ↔ ∀ e ∈ pt, e.len = e.format.keyLength := by
  simp [keyLengthsOk]

theorem mnemonicsOk_iff (fs : List FSEntry) (pt : List PTEntry) :
    mnemonicsOk fs pt = true ↔
      (∀ e ∈ fs, mnemonicOk e.mnemonic = true) ∧ ∀ e ∈ pt, mnemonicOk e.mnemonic = true := by
  simp [mnemonicsOk]

/-- Check (b) of R25 for one entry, with each format's key length written out (R48). -/
theorem eq_keyLength_iff (n : Nat) (f : Format) :
    n = f.keyLength ↔ ((f = .r ∨ f = .d) → n = 11) ∧ (f = .i → n = 10) ∧ (f = .im → n = 9) ∧
      (f = .b → n = 6) ∧ (f = .cb → n = 8) := by
  cases f <;> simp [Format.keyLength]

/-- The characters of a mnemonic as ranges of characters (R25(c)). -/
theorem isMnemonicChar_iff (c : Char) :
    isMnemonicChar c = true ↔ ('A' ≤ c ∧ c ≤ 'Z') ∨ ('0' ≤ c ∧ c ≤ '9') ∨ c = '.' := by
  simp [isMnemonicChar, Char.le_def, UInt32.le_iff_toNat_le, or_assoc]

/-- Check (c) of R25 for one mnemonic. -/
theorem mnemonicOk_iff (m : Mnemonic) :
    mnemonicOk m = true ↔
      m ≠ "" ∧ ∀ c ∈ m.toList, ('A' ≤ c ∧ c ≤ 'Z') ∨ ('0' ≤ c ∧ c ≤ '9') ∨ c = '.' := by
  simp [mnemonicOk, isMnemonicChar_iff]

end Sys2Proof

namespace Sys2Proof.Machine

theorem powerOn_of_wf {fs : List FSEntry} {pt : List PTEntry} (h : tablesWf fs pt = true) :
    State.powerOn fs pt = .next { fs := fs, pt := pt, requests := [], responses := [] } := by
  simpa [h] using powerOn_cases fs pt

theorem powerOn_of_illFormed {fs : List FSEntry} {pt : List PTEntry} (h : ¬ tablesWf fs pt = true) :
    State.powerOn fs pt = .refused .illFormedTables := by
  simpa [h] using powerOn_cases fs pt

/-- Settles O41: the checks written out are tablesWf, check by check. -/
theorem illFormedTablesAreRefused : Obligations.IllFormedTablesAreRefused := by
  intro fs pt nameOk good
  have hgood : good ↔ tablesWf fs pt = true := by
    simp only [tablesWf_iff, keysUnique_iff, keyLengthsOk_iff, mnemonicsOk_iff, eq_keyLength_iff, mnemonicOk_iff,
      and_assoc, good, nameOk]
  rw [hgood]
  exact ⟨powerOn_of_wf, powerOn_of_illFormed⟩

/-- Settles O42: each disjunct contradicts one check of R25. -/
theorem stepRefusesIllFormedTables : Obligations.StepRefusesIllFormedTables := by
  intro s h
  refine step_of_illFormed (Bool.eq_false_iff.mpr fun hwf => ?_)
  obtain ⟨hkeys, hlens, hnames⟩ := (tablesWf_iff _ _).mp hwf
  obtain ⟨hfsKeys, hptKeys⟩ := (keysUnique_iff _ _).mp hkeys
  obtain ⟨hfsNames, hptNames⟩ := (mnemonicsOk_iff _ _).mp hnames
  obtain ⟨a, ha, hname⟩ | ⟨a, ha, hname⟩ | ⟨a, ha, hlen⟩ | hdup | hdup := h
  · exact Bool.false_ne_true (hname.symm.trans (hfsNames a ha))
  · exact Bool.false_ne_true (hname.symm.trans (hptNames a ha))
  · exact hlen ((keyLengthsOk_iff _).mp hlens a ha)
  · exact hdup (List.pairwise_map.mpr hfsKeys)
  · exact hdup hptKeys

/-! ## The invariant -/

/-- A text of printable characters only (R11). -/
def printable (t : String) : Bool := t.toList.all isPrintable

theorem isPrintable_iff (c : Char) : isPrintable c = true ↔ 0x20 ≤ c.toNat ∧ c.toNat ≤ 0x7E := by
  simp [isPrintable]

/-- A line is good when it is not empty and printable. -/
theorem lineOk_iff (t : String) : lineOk t = true ↔ t ≠ "" ∧ printable t = true := by
  simp [lineOk, printable]

@[simp] theorem printable_append (t u : String) : printable (t ++ u) = (printable t && printable u) := by
  simp [printable]

/-- A table's mnemonic is printable (R25(c), R11). -/
theorem printable_of_mnemonicOk {m : Mnemonic} (h : mnemonicOk m = true) : printable m = true := by
  obtain ⟨-, hchars⟩ := (mnemonicOk_iff m).mp h
  refine List.all_eq_true.mpr fun c hc => ?_
  obtain ⟨hlo, hhi⟩ | ⟨hlo, hhi⟩ | rfl := hchars c hc
  · exact (isPrintable_iff c).mpr ⟨le_trans (by decide) hlo, le_trans hhi (by decide)⟩
  · exact (isPrintable_iff c).mpr ⟨le_trans (by decide) hlo, le_trans hhi (by decide)⟩
  · decide

@[simp] theorem printable_decNat (n : Nat) : printable (decNat n) = true := by
  refine List.all_eq_true.mpr fun c hc => (isPrintable_iff c).mpr ?_
  rw [decNat, Nat.repr_eq_ofList_toDigits, String.toList_ofList] at hc
  obtain ⟨hlo, hhi⟩ := Char.isDigit_iff_toNat.mp (Nat.isDigit_of_mem_toDigits (by decide) (by decide) hc)
  exact ⟨le_trans (by decide) hlo, le_trans hhi (by decide)⟩

@[simp] theorem printable_dec (n : Int) : printable (dec n) = true := by
  unfold dec
  split
  · rw [printable_append, printable_decNat]; rfl
  · exact printable_decNat _

@[simp] theorem printable_reg (n : RegIx) : printable (reg n) = true := by
  rw [reg, printable_append, printable_decNat]; rfl

theorem isPrintable_hexDigit : ∀ d : BitVec 4, isPrintable (hexDigit d) = true := by decide

@[simp] theorem printable_hex8 (w : Word) : printable (hex8 w) = true := by
  simp [printable, hex8, hex8Digits, isPrintable_hexDigit]

@[simp] theorem printable_shiftSuffix (shamt : BitVec 6) : printable (shiftSuffix shamt) = true := by
  unfold shiftSuffix
  split
  · rfl
  · rw [printable_append, printable_decNat]; rfl

/-- The texts that the templates put between a mnemonic and its operands (R54, R69). -/
theorem printable_separator :
    ∀ t ∈ [" ", ", ", ", [", ", #", " #", "]", ".word 0x", fallbackGap, "// unknown"], printable t = true := by
  decide

/-- No template renders the empty text (R54, R60). -/
theorem render_ne_empty (r : Record) : render r ≠ "" := by
  cases r <;>
    simp [render, renderFixedShamt, renderR, renderD, renderI, renderIM, renderB, renderCB, renderUnknown]

/-- Every template adds only printable characters to the mnemonic (R11, R54). -/
theorem printable_render {r : Record} (h : r.source.all (fun p => printable p.2) = true) :
    printable (render r) = true := by
  cases r with
  | unknown w => simp [render, renderUnknown, printable_separator]
  | fixedShamt mn rd rn rm => simpa [render, renderFixedShamt, printable_separator] using h
  | r mn rd rn rm shamt => simpa [render, renderR, printable_separator] using h
  | d mn rt rn imm => simpa [render, renderD, printable_separator] using h
  | i mn rd rn imm => simpa [render, renderI, printable_separator] using h
  | im mn rd hw imm => simpa [render, renderIM, printable_separator] using h
  | b mn disp => simpa [render, renderB, printable_separator] using h
  | cb mn rt disp => simpa [render, renderCB, printable_separator] using h

/-- On tables with good mnemonics the block's function gives every word a good line (R28, R60). -/
theorem lineOk_decodeText {fs : List FSEntry} {pt : List PTEntry} (h : mnemonicsOk fs pt = true) (w : Word) :
    lineOk (decodeText fs pt w) = true := by
  obtain ⟨hfs, hpt⟩ := (mnemonicsOk_iff fs pt).mp h
  have hsource := source_classify_all (P := fun p => printable p.2)
    (fun e he => printable_of_mnemonicOk (hfs e he)) (fun e he => printable_of_mnemonicOk (hpt e he)) w
  exact (lineOk_iff _).mpr ⟨render_ne_empty _, printable_render hsource⟩

/-- The block's function gives every request a response the interface allows (R28, R60, R187). -/
theorem answer_ok {fs : List FSEntry} {pt : List PTEntry} (h : tablesWf fs pt = true) (q : Request) :
    (answer fs pt q).ok = true := by
  obtain ⟨-, -, hnames⟩ := (tablesWf_iff fs pt).mp h
  unfold answer
  cases requestWord q with
  | ok w => exact lineOk_decodeText hnames w
  | error e => cases e <;> rfl

/-- Settles O44: a step keeps the tables and adds at most the answer of one request. -/
theorem invariantIsKeptByEveryStep : Obligations.InvariantIsKeptByEveryStep := by
  intro s t ⟨hwf, hresp⟩ h
  obtain ⟨-, ⟨-, rfl⟩ | ⟨q, rest, -, rfl⟩⟩ := step_next_answer h
  · exact ⟨hwf, hresp⟩
  · refine ⟨hwf, fun r hr => ?_⟩
    obtain hold | hnew := List.mem_append.mp hr
    · exact hresp r hold
    · rw [List.mem_singleton.mp hnew]
      exact answer_ok hwf q

/-- Settles O45: neither state has given a response yet. -/
theorem invariantHoldsAtReset : Obligations.InvariantHoldsAtReset := by
  refine ⟨⟨tablesWf_reference, fun r hr => absurd hr List.not_mem_nil⟩, fun fs pt s h => ?_⟩
  obtain ⟨hwf, hnext⟩ | ⟨-, hrefused⟩ := powerOn_cases fs pt
  · rw [hnext] at h
    cases h
    exact ⟨hwf, fun r hr => absurd hr List.not_mem_nil⟩
  · rw [hrefused] at h; cases h

/-- Settles O46. -/
theorem resetIsPowerOnWithTheDefaultTables : Obligations.ResetIsPowerOnWithTheDefaultTables :=
  ⟨rfl, rfl, powerOn_of_wf tablesWf_reference⟩

end Sys2Proof.Machine

/-! ## The reference population: its entries, and that no word matches two of them -/

namespace Sys2Proof

/-- Two match/mask forms (mask first) whose matches differ on the bits that both masks keep. -/
def conflict (a b : Word × Word) : Bool := a.2 &&& b.1 != b.2 &&& a.1

/-- The match/mask forms (mask first) of all entries of the reference tables (R48). -/
def referenceForms : List (Word × Word) :=
  referenceFS.map (fun e => (fsMask, e.pattern)) ++ referencePT.map fun e => (e.mask, e.pattern)

theorem referenceForms_conflict : referenceForms.Pairwise (conflict · · = true) := by decide

/-- No word satisfies two match/mask forms that conflict. -/
theorem not_both_of_conflict {a b : Word × Word} (h : conflict a b = true) {w : Word} (ha : w &&& a.1 = a.2)
    (hb : w &&& b.1 = b.2) : False := by
  simp only [conflict, bne_iff_ne] at h
  apply h
  rw [← ha, ← hb, BitVec.and_assoc, BitVec.and_assoc, BitVec.and_comm a.1]

/-- A filter keeps at most one element of a list in which no two elements satisfy it together. -/
theorem length_filter_le_one {α : Type} {p : α → Bool} {l : List α}
    (h : l.Pairwise fun a b => ¬ (p a = true ∧ p b = true)) : (l.filter p).length ≤ 1 := by
  have hp : ∀ a ∈ l.filter p, p a = true := fun a ha => (List.mem_filter.mp ha).2
  have hpair := h.filter p
  match hf : l.filter p with
  | [] => simp
  | [a] => simp
  | a :: b :: rest =>
    rw [hf] at hp hpair
    exact absurd ⟨hp a (by simp), hp b (by simp)⟩ (List.rel_of_pairwise_cons hpair (by simp))

end Sys2Proof

namespace Sys2Proof.Machine

/-- Settles O4: the entries' match/mask forms conflict in pairs, and an entry is hit exactly when its form is met. -/
theorem everyWordHitsAtMostOneEntry : Obligations.EveryWordHitsAtMostOneEntry := by
  intro w
  have hforms : (referenceForms.filter fun a => w &&& a.1 == a.2).length ≤ 1 :=
    length_filter_le_one (referenceForms_conflict.imp fun hab ⟨ha, hb⟩ =>
      not_both_of_conflict hab (beq_iff_eq.mp ha) (beq_iff_eq.mp hb))
  rwa [referenceForms, List.filter_append, List.length_append, List.filter_map, List.filter_map, List.length_map,
    List.length_map] at hforms

/-- Settles O7, part by part: each list of R51 is compared with the table's entries of its format, in any order. -/
theorem referenceTablesHoldTheListedEntries : Obligations.ReferenceTablesHoldTheListedEntries := by
  refine ⟨by decide, by decide, by decide, by decide, by decide, by decide, by decide, rfl, rfl, ?_⟩
  exact ⟨by decide, by decide, by decide, by decide, by decide, by decide, tablesWf_reference⟩

end Sys2Proof.Machine

/-! ## Runs: a batch of requests is answered to the end, and its order does not matter -/

namespace Sys2Proof.Machine

/-- A run of n + 1 steps whose first step answers a next state is the run of n steps from there. -/
theorem run_succ_of_step {s u : State} (h : step s = .next u) (n : Nat) :
    Sys2Proof.core.run (n + 1) s = Sys2Proof.core.run n u := by
  have hcore : Sys2Proof.core.step s = .next u := h
  simp only [Host.Core.run, hcore]

/-- As many steps as there are requests give each request its answer by the state's own tables (R37). -/
theorem run_of_requests_eq (qs : List Request) {s : State} (hwf : tablesWf s.fs s.pt = true) (hq : s.requests = qs) :
    Sys2Proof.core.run qs.length s =
      .next { s with requests := [], responses := s.responses ++ qs.map (answer s.fs s.pt) } := by
  induction qs generalizing s with
  | nil =>
    have hs : { s with requests := [] } = s := by rw [← hq]
    rw [List.map_nil, List.append_nil, hs]
    rfl
  | cons q rest ih =>
    rw [List.length_cons, run_succ_of_step (step_of_requests_cons hwf hq),
      ih (s := (s.withRequests rest).respond (answer s.fs s.pt q)) hwf rfl]
    simp [State.respond, State.withRequests]

/-- Settles O49. -/
theorem runAnswersEveryRequestInOrder : Obligations.RunAnswersEveryRequestInOrder :=
  fun _ hwf => run_of_requests_eq _ hwf rfl

/-- Settles O50: the responses are the requests mapped by the block's function, so each pair of request and response is
a function of the request alone, and reordering the requests reorders the pairs. -/
theorem requestOrderDoesNotMatter : Obligations.RequestOrderDoesNotMatter := by
  intro fs pt hwf qs qs' hperm
  have hrun (l : List Request) := run_of_requests_eq l
    (s := { fs := fs, pt := pt, requests := l, responses := [] }) hwf rfl
  refine ⟨qs.map (answer fs pt), qs'.map (answer fs pt), List.length_map .., List.length_map .., hrun qs, hrun qs', ?_⟩
  rw [← List.map_prod_left_eq_zip, ← List.map_prod_left_eq_zip]
  exact hperm.map _

end Sys2Proof.Machine

/-! ## Words as encodings of their keys and fields, and what it is to match an entry -/

namespace Sys2Proof

/-- Two neighbouring slices of a word, put together, are one slice. -/
theorem slice_append_slice (w : Word) {hi lo m n : Nat} (h : hi = lo + n) :
    w.extractLsb' hi m ++ w.extractLsb' lo n = w.extractLsb' lo (m + n) :=
  BitVec.extractLsb'_append_extractLsb'_eq_extractLsb' h

/-- The slice of all 32 bits is the word. -/
theorem slice_all (w : Word) : w.extractLsb' 0 32 = w := BitVec.extractLsb'_eq_self

theorem fsKey_high (w : Word) : (fsKey w).extractLsb' 6 11 = key11 w :=
  (slice_high _ _ (by decide)).trans BitVec.extractLsb'_eq_self

theorem fsKey_low (w : Word) : (fsKey w).extractLsb' 0 6 = shamtField w :=
  (slice_low _ _ (by decide)).trans BitVec.extractLsb'_eq_self

/- A word is the encoding of its own key and fields: each format's fields cover the word (R41 to R47). -/

theorem encodeR_fields (w : Word) :
    encodeR (key11 w) (rdField w) (rnField w) (rmField w) (shamtField w) = w := by
  simp only [encodeR, key11, rdField, rnField, rmField, shamtField, slice_append_slice]
  exact slice_all w

theorem encodeFixedShamt_fields (w : Word) :
    encodeFixedShamt (fsKey w) (rdField w) (rnField w) (rmField w) = w := by
  rw [encodeFixedShamt, fsKey_high, fsKey_low]
  exact encodeR_fields w

theorem encodeI_fields (w : Word) : encodeI (key10 w) (rdField w) (rnField w) (imm12Field w) = w := by
  simp only [encodeI, key10, rdField, rnField, imm12Field, slice_append_slice]
  exact slice_all w

theorem encodeIM_fields (w : Word) : encodeIM (key9 w) (rdField w) (hwField w) (imm16Field w) = w := by
  simp only [encodeIM, key9, rdField, hwField, imm16Field, slice_append_slice]
  exact slice_all w

theorem encodeB_fields (w : Word) : encodeB (key6 w) (disp26Field w) = w := by
  simp only [encodeB, key6, disp26Field, slice_append_slice]
  exact slice_all w

theorem encodeCB_fields (w : Word) : encodeCB (key8 w) (rdField w) (disp19Field w) = w := by
  simp only [encodeCB, key8, rdField, disp19Field, slice_append_slice]
  exact slice_all w

/-- Masking five fields put together, with the third one cleared. -/
theorem fields_and_clear_third {a b c d e : Nat} (v : BitVec a) (w : BitVec b) (x : BitVec c) (y : BitVec d)
    (z : BitVec e) :
    (v ++ w ++ x ++ y ++ z) &&&
        (BitVec.allOnes a ++ BitVec.allOnes b ++ 0#c ++ BitVec.allOnes d ++ BitVec.allOnes e) =
      v ++ w ++ 0#c ++ y ++ z := by
  simp [BitVec.and_append]

/-- Masking five fields put together, with only the first and the third one kept. -/
theorem fields_and_keep_first_third {a b c d e : Nat} (v : BitVec a) (w : BitVec b) (x : BitVec c) (y : BitVec d)
    (z : BitVec e) :
    (v ++ w ++ x ++ y ++ z) &&& (BitVec.allOnes a ++ 0#b ++ BitVec.allOnes c ++ 0#d ++ 0#e) =
      v ++ 0#b ++ x ++ 0#d ++ 0#e := by
  simp [BitVec.and_append]

/-- The fields of format D cover the word but for bits 11..10, which the encoder writes 0 (R43). -/
theorem encodeD_fields (w : Word) :
    encodeD (key11 w) (rdField w) (rnField w) (imm9Field w) = w &&& 0xFFFFF3FF#32 := by
  have hw : key11 w ++ imm9Field w ++ w.extractLsb' 10 2 ++ rnField w ++ rdField w = w := by
    simp only [key11, imm9Field, rnField, rdField, slice_append_slice]
    exact slice_all w
  conv_rhs => rw [← hw]
  exact (fields_and_clear_third ..).symm

/-- The fixed-shamt mask keeps the key and clears the register fields (R48). -/
theorem and_fsMask (w : Word) : w &&& fsMask = encodeFixedShamt (fsKey w) 0 0 0 := by
  conv_lhs => rw [← encodeR_fields w]
  rw [encodeFixedShamt, fsKey_high, fsKey_low]
  exact fields_and_keep_first_third ..

/-- The opcode of a fixed-shamt key, shifted down (R48). -/
theorem setWidth_ushiftRight_key (k : BitVec 17) : (k >>> 6).setWidth 32 = (k.extractLsb' 6 11).setWidth 32 := by
  apply BitVec.eq_of_toNat_eq
  simp [Nat.shiftRight_eq_div_pow]
  omega

/-- The shamt of a fixed-shamt key, masked out (R48). -/
theorem setWidth_and_key (k : BitVec 17) :
    (k &&& 0x3F#17).setWidth 32 = (k.extractLsb' 0 6).setWidth 32 := by
  have hlow : (k &&& 0x3F#17).toNat = k.toNat % 2 ^ 6 := Nat.and_two_pow_sub_one_eq_mod k.toNat 6
  apply BitVec.eq_of_toNat_eq
  rw [BitVec.toNat_setWidth, BitVec.toNat_setWidth, hlow, BitVec.extractLsb'_toNat, Nat.shiftRight_zero]

/-- The match value of a fixed-shamt entry is its encoding with every register field 0 (R48). -/
theorem FSEntry.pattern_eq (e : FSEntry) : e.pattern = encodeFixedShamt e.key 0 0 0 := by
  have hfixed := Laws.fixedBits_encodeFixedShamt e.key 0 0 0
  rw [show 0xFFE0FC00#32 = fsMask from rfl, and_fsMask, fsKey_encodeFixedShamt] at hfixed
  rw [FSEntry.pattern, setWidth_ushiftRight_key, setWidth_and_key, hfixed]

/-- A word matches a fixed-shamt entry exactly when its key is the entry's (R48, R63). -/
theorem FSEntry.hits_iff (e : FSEntry) (w : Word) : e.hits w = true ↔ fsKey w = e.key := by
  rw [FSEntry.hits, beq_iff_eq, and_fsMask, FSEntry.pattern_eq]
  exact ⟨fun h => by simpa using congrArg fsKey h, fun h => by rw [h]⟩

/-- A key shifted to the top of a word is the word's top slice. -/
theorem slice_shiftLeft {n : Nat} (k : BitVec n) {lo : Nat} (h : lo + n = 32) :
    (k.setWidth 32 <<< lo).extractLsb' lo n = k := by
  apply BitVec.eq_of_getLsbD_eq
  intro i hi
  simp [hi, show lo + i < 32 by omega]

/-- A word matches a primary entry exactly when its top bits are the entry's key (R48). -/
theorem PTEntry.hits_iff (e : PTEntry) (h : e.len ≤ 32) (w : Word) :
    e.hits w = true ↔ w.extractLsb' (32 - e.len) e.len = e.key := by
  have hlen : 32 - e.len + e.len = 32 := Nat.sub_add_cancel h
  rw [PTEntry.hits, beq_iff_eq, PTEntry.mask, PTEntry.pattern, Laws.and_topMask w _ _ hlen]
  exact ⟨fun hw => by simpa only [slice_shiftLeft _ hlen] using congrArg (BitVec.extractLsb' (32 - e.len) e.len) hw,
    fun hw => by rw [hw]⟩

/-! ## The cascade over well-formed tables: the record of an entry that the word matches -/

/-- The record of a word under a fixed-shamt entry (R61, R80). -/
def FSEntry.record (e : FSEntry) (w : Word) : Record :=
  .fixedShamt e.mnemonic (rdField w) (rnField w) (rmField w)

/-- The record of a word under a primary entry: its format's fields (R61, R66). -/
def PTEntry.record (e : PTEntry) (w : Word) : Record :=
  match e.format with
  | .r => .r e.mnemonic (rdField w) (rnField w) (rmField w) (shamtField w)
  | .d => .d e.mnemonic (rdField w) (rnField w) (imm9Field w)
  | .i => .i e.mnemonic (rdField w) (rnField w) (imm12Field w)
  | .im => .im e.mnemonic (rdField w) (hwField w) (imm16Field w)
  | .b => .b e.mnemonic (disp26Field w)
  | .cb => .cb e.mnemonic (rdField w) (disp19Field w)

/-- The cascade answers a probe's record, or the unknown word when every probe misses (R61, R69). -/
theorem classify_mem_probeOutcomes (fs : List FSEntry) (pt : List PTEntry) (w : Word) :
    some (classify fs pt w) ∈ probeOutcomes fs pt w ∨
      ((∀ o ∈ probeOutcomes fs pt w, o = none) ∧ classify fs pt w = .unknown w) := by
  unfold classify probeOutcomes
  repeat' split
  all_goals simp [*]

/-- A lookup of a word's top bits that answers names an entry that the word matches. -/
theorem lookupPT_slice_some {pt : List PTEntry} {w : Word} {n : Nat} {mn : Mnemonic} {f : Format} (hn : n ≤ 32)
    (h : lookupPT pt (w.extractLsb' (32 - n) n) = some (mn, f)) :
    ∃ e ∈ pt, e.hits w = true ∧ e.mnemonic = mn ∧ e.format = f := by
  obtain ⟨e, he, rfl, hkey, hmn, hf⟩ := lookupPT_some h
  exact ⟨e, he, (e.hits_iff hn w).mpr (BitVec.eq_of_toNat_eq hkey.symm), hmn, hf⟩

/-- A probe's record is the record of an entry that the word matches. -/
theorem hits_of_mem_probeOutcomes {fs : List FSEntry} {pt : List PTEntry} {w : Word} {r : Record}
    (h : some r ∈ probeOutcomes fs pt w) :
    (∃ e ∈ fs, e.hits w = true ∧ r = e.record w) ∨ ∃ e ∈ pt, e.hits w = true ∧ r = e.record w := by
  have hentry {n : Nat} {mn : Mnemonic} {f : Format} (hn : n ≤ 32)
      (hl : lookupPT pt (w.extractLsb' (32 - n) n) = some (mn, f))
      (hr : ∀ e : PTEntry, e.mnemonic = mn → e.format = f → r = e.record w) :
      ∃ e ∈ pt, e.hits w = true ∧ r = e.record w := by
    obtain ⟨e, he, hw, hmn, hf⟩ := lookupPT_slice_some hn hl
    exact ⟨e, he, hw, hr e hmn hf⟩
  simp only [probeOutcomes, List.mem_cons, List.not_mem_nil, or_false] at h
  obtain h | h | h | h | h | h := h
  · obtain ⟨mn, hl, rfl⟩ := probeFixedShamt_some h.symm
    obtain ⟨e, he, hkey, rfl⟩ := lookupFS_some hl
    exact .inl ⟨e, he, (e.hits_iff w).mpr hkey.symm, rfl⟩
  · obtain ⟨mn, hl, rfl⟩ | ⟨mn, hl, rfl⟩ := probe11_some h.symm
    · exact .inr (hentry (n := 11) (by decide) hl fun e hmn hf => by rw [PTEntry.record, hf, hmn])
    · exact .inr (hentry (n := 11) (by decide) hl fun e hmn hf => by rw [PTEntry.record, hf, hmn])
  · obtain ⟨mn, hl, rfl⟩ := probe10_some h.symm
    exact .inr (hentry (n := 10) (by decide) hl fun e hmn hf => by rw [PTEntry.record, hf, hmn])
  · obtain ⟨mn, hl, rfl⟩ := probe9_some h.symm
    exact .inr (hentry (n := 9) (by decide) hl fun e hmn hf => by rw [PTEntry.record, hf, hmn])
  · obtain ⟨mn, hl, rfl⟩ := probe6_some h.symm
    exact .inr (hentry (n := 6) (by decide) hl fun e hmn hf => by rw [PTEntry.record, hf, hmn])
  · obtain ⟨mn, hl, rfl⟩ := probe8_some h.symm
    exact .inr (hentry (n := 8) (by decide) hl fun e hmn hf => by rw [PTEntry.record, hf, hmn])

/-- With unique keys, a fixed-shamt entry that the word matches is what the first probe answers. -/
theorem probeFixedShamt_of_hits {fs : List FSEntry} {pt : List PTEntry} (h : keysUnique fs pt = true) {e : FSEntry}
    (he : e ∈ fs) {w : Word} (hw : e.hits w = true) : probeFixedShamt fs w = some (e.record w) := by
  rw [probeFixedShamt, (e.hits_iff w).mp hw, lookupFS_of_mem h he]
  rfl

/-- In a well-formed pair, a primary entry that the word matches is what the probe of its format answers. -/
theorem mem_probeOutcomes_of_hits {fs : List FSEntry} {pt : List PTEntry} (h : tablesWf fs pt = true) {e : PTEntry}
    (he : e ∈ pt) {w : Word} (hw : e.hits w = true) : some (e.record w) ∈ probeOutcomes fs pt w := by
  obtain ⟨hkeys, hlens, -⟩ := (tablesWf_iff fs pt).mp h
  have hlen : e.len = e.format.keyLength := (keyLengthsOk_iff pt).mp hlens e he
  have hlookup {n : Nat} (hn : e.len = n) (hn32 : n ≤ 32) :
      lookupPT pt (w.extractLsb' (32 - n) n) = some (e.mnemonic, e.format) := by
    subst hn
    exact lookupPT_of_mem hkeys he rfl (congrArg BitVec.toNat ((e.hits_iff hn32 w).mp hw).symm)
  simp only [probeOutcomes, List.mem_cons, List.not_mem_nil, or_false, PTEntry.record]
  cases hf : e.format with
  | r =>
    rw [hf] at hlen
    have hl : lookupPT pt (key11 w) = some (e.mnemonic, e.format) := hlookup hlen (by decide)
    simp [probe11, hl, hf]
  | d =>
    rw [hf] at hlen
    have hl : lookupPT pt (key11 w) = some (e.mnemonic, e.format) := hlookup hlen (by decide)
    simp [probe11, hl, hf]
  | i =>
    rw [hf] at hlen
    have hl : lookupPT pt (key10 w) = some (e.mnemonic, e.format) := hlookup hlen (by decide)
    simp [probe10, hl, hf]
  | im =>
    rw [hf] at hlen
    have hl : lookupPT pt (key9 w) = some (e.mnemonic, e.format) := hlookup hlen (by decide)
    simp [probe9, hl, hf]
  | b =>
    rw [hf] at hlen
    have hl : lookupPT pt (key6 w) = some (e.mnemonic, e.format) := hlookup hlen (by decide)
    simp [probe6, hl, hf]
  | cb =>
    rw [hf] at hlen
    have hl : lookupPT pt (key8 w) = some (e.mnemonic, e.format) := hlookup hlen (by decide)
    simp [probe8, hl, hf]

theorem isKnownWord_iff (fs : List FSEntry) (pt : List PTEntry) (w : Word) :
    isKnownWord fs pt w = true ↔ (∃ e ∈ fs, e.hits w = true) ∨ ∃ e ∈ pt, e.hits w = true := by
  simp [isKnownWord]

/-- What the cascade answers over a well-formed pair: the record of an entry that the word matches, or the unknown word
when it matches none (R61, R66, R69). -/
theorem classify_entry {fs : List FSEntry} {pt : List PTEntry} (h : tablesWf fs pt = true) (w : Word) :
    (∃ e ∈ fs, e.hits w = true ∧ classify fs pt w = e.record w) ∨
    (∃ e ∈ pt, e.hits w = true ∧ classify fs pt w = e.record w) ∨
    (isKnownWord fs pt w = false ∧ classify fs pt w = .unknown w) := by
  obtain ⟨hkeys, -, -⟩ := (tablesWf_iff fs pt).mp h
  obtain hsome | ⟨hnone, hunknown⟩ := classify_mem_probeOutcomes fs pt w
  · exact (hits_of_mem_probeOutcomes hsome).imp id .inl
  · refine .inr (.inr ⟨Bool.eq_false_iff.mpr fun hknown => ?_, hunknown⟩)
    obtain ⟨e, he, hw⟩ | ⟨e, he, hw⟩ := (isKnownWord_iff fs pt w).mp hknown
    · have hmiss : probeFixedShamt fs w = none := hnone _ (by simp [probeOutcomes])
      exact Option.some_ne_none _ ((probeFixedShamt_of_hits hkeys he hw).symm.trans hmiss)
    · exact Option.some_ne_none _ (hnone _ (mem_probeOutcomes_of_hits h he hw))

/-- With unique keys, the cascade answers the record of a fixed-shamt entry that the word matches: its step is the first
(R61). -/
theorem classify_of_fsHits {fs : List FSEntry} {pt : List PTEntry} (h : keysUnique fs pt = true) {e : FSEntry}
    (he : e ∈ fs) {w : Word} (hw : e.hits w = true) : classify fs pt w = e.record w := by
  rw [classify, probeFixedShamt_of_hits h he hw]

/-- A word that matches no entry of a well-formed pair is classified as unknown (R69). -/
theorem classify_of_unknown {fs : List FSEntry} {pt : List PTEntry} (h : tablesWf fs pt = true) {w : Word}
    (hw : isKnownWord fs pt w = false) : classify fs pt w = .unknown w := by
  have hnone := mt (isKnownWord_iff fs pt w).mpr (Bool.eq_false_iff.mp hw)
  obtain ⟨e, he, hit, -⟩ | ⟨e, he, hit, -⟩ | ⟨-, hunknown⟩ := classify_entry h w
  · exact absurd (.inl ⟨e, he, hit⟩) hnone
  · exact absurd (.inr ⟨e, he, hit⟩) hnone
  · exact hunknown

/-! ## The cascade over the reference tables -/

/-- A list of at most one element has no two members. -/
theorem eq_of_mem_of_length_le_one {α : Type} {l : List α} (h : l.length ≤ 1) {a b : α} (ha : a ∈ l) (hb : b ∈ l) :
    a = b := by
  match l with
  | [] => cases ha
  | [c] => rw [List.mem_singleton.mp ha, List.mem_singleton.mp hb]
  | _ :: _ :: _ => simp at h

/-- A word matches at most one entry of the reference PT (R26). -/
theorem referencePT_hits_unique {e e' : PTEntry} (he : e ∈ referencePT) (he' : e' ∈ referencePT) {w : Word}
    (hw : e.hits w = true) (hw' : e'.hits w = true) : e = e' := by
  have hmem {a : PTEntry} (ha : a ∈ referencePT) (h : a.hits w = true) : a ∈ referencePT.filter (·.hits w) :=
    List.mem_filter.mpr ⟨ha, h⟩
  exact eq_of_mem_of_length_le_one (le_trans (Nat.le_add_left ..) (Machine.everyWordHitsAtMostOneEntry w))
    (hmem he hw) (hmem he' hw')

/-- A word does not match an entry of each reference table (R26). -/
theorem reference_not_both_hit {e : FSEntry} {e' : PTEntry} (he : e ∈ referenceFS) (he' : e' ∈ referencePT) {w : Word}
    (hw : e.hits w = true) (hw' : e'.hits w = true) : False := by
  have hfs : 0 < (referenceFS.filter (·.hits w)).length := List.length_filter_pos_iff.mpr ⟨e, he, hw⟩
  have hpt : 0 < (referencePT.filter (·.hits w)).length := List.length_filter_pos_iff.mpr ⟨e', he', hw'⟩
  have hone := Machine.everyWordHitsAtMostOneEntry w
  omega

/-- The reference cascade answers the record of a fixed-shamt entry that the word matches. -/
theorem classify_reference_of_fsHits {e : FSEntry} (he : e ∈ referenceFS) {w : Word} (hw : e.hits w = true) :
    classify referenceFS referencePT w = e.record w :=
  classify_of_fsHits ((tablesWf_iff _ _).mp tablesWf_reference).1 he hw

/-- The reference cascade answers the record of a primary entry that the word matches. -/
theorem classify_reference_of_ptHits {e : PTEntry} (he : e ∈ referencePT) {w : Word} (hw : e.hits w = true) :
    classify referenceFS referencePT w = e.record w := by
  obtain ⟨e', he', hw', -⟩ | ⟨e', he', hw', hc⟩ | ⟨hunknown, -⟩ := classify_entry tablesWf_reference w
  · exact (reference_not_both_hit he' he hw' hw).elim
  · rw [hc, referencePT_hits_unique he he' hw hw']
  · exact absurd ((isKnownWord_iff _ _ w).mpr (.inr ⟨e, he, hw⟩)) (Bool.eq_false_iff.mp hunknown)

/-! ## Decode of encode -/

theorem referencePT_len_le : ∀ e ∈ referencePT, e.len ≤ 32 := by decide

/-- The reference cascade answers the record of the primary entry whose key stands at the top of the word. -/
theorem classify_of_slice {n : Nat} {key : BitVec n} {mn : Mnemonic} {f : Format}
    (h : ⟨n, key, mn, f⟩ ∈ referencePT) {w : Word} (hkey : w.extractLsb' (32 - n) n = key) :
    classify referenceFS referencePT w = PTEntry.record ⟨n, key, mn, f⟩ w :=
  classify_reference_of_ptHits h ((PTEntry.hits_iff _ (referencePT_len_le _ h) w).mpr hkey)

/- An encoding with the key of a reference entry is classified as that entry's record of the encoded fields. -/

theorem classify_encodeFixedShamt {key : BitVec 17} {mn : Mnemonic} (h : ⟨key, mn⟩ ∈ referenceFS) (rd rn rm : RegIx) :
    classify referenceFS referencePT (encodeFixedShamt key rd rn rm) = .fixedShamt mn rd rn rm := by
  rw [classify_reference_of_fsHits h ((FSEntry.hits_iff ..).mpr (fsKey_encodeFixedShamt key rd rn rm))]
  simp [FSEntry.record]

theorem classify_encodeR {key : BitVec 11} {mn : Mnemonic} (h : ⟨11, key, mn, .r⟩ ∈ referencePT) (rd rn rm : RegIx)
    (shamt : BitVec 6) :
    classify referenceFS referencePT (encodeR key rd rn rm shamt) = .r mn rd rn rm shamt := by
  rw [classify_of_slice h (key11_encodeR key rd rn rm shamt)]
  simp [PTEntry.record]

theorem classify_encodeD {key : BitVec 11} {mn : Mnemonic} (h : ⟨11, key, mn, .d⟩ ∈ referencePT) (rt rn : RegIx)
    (imm : BitVec 9) : classify referenceFS referencePT (encodeD key rt rn imm) = .d mn rt rn imm := by
  rw [classify_of_slice h (key11_encodeD key rt rn imm)]
  simp [PTEntry.record]

theorem classify_encodeI {key : BitVec 10} {mn : Mnemonic} (h : ⟨10, key, mn, .i⟩ ∈ referencePT) (rd rn : RegIx)
    (imm : BitVec 12) : classify referenceFS referencePT (encodeI key rd rn imm) = .i mn rd rn imm := by
  rw [classify_of_slice h (key10_encodeI key rd rn imm)]
  simp [PTEntry.record]

theorem classify_encodeIM {key : BitVec 9} {mn : Mnemonic} (h : ⟨9, key, mn, .im⟩ ∈ referencePT) (rd : RegIx)
    (hw : BitVec 2) (imm : BitVec 16) :
    classify referenceFS referencePT (encodeIM key rd hw imm) = .im mn rd hw imm := by
  rw [classify_of_slice h (key9_encodeIM key rd hw imm)]
  simp [PTEntry.record]

theorem classify_encodeB {key : BitVec 6} {mn : Mnemonic} (h : ⟨6, key, mn, .b⟩ ∈ referencePT) (disp : BitVec 26) :
    classify referenceFS referencePT (encodeB key disp) = .b mn disp := by
  rw [classify_of_slice h (key6_encodeB key disp)]
  simp [PTEntry.record]

theorem classify_encodeCB {key : BitVec 8} {mn : Mnemonic} (h : ⟨8, key, mn, .cb⟩ ∈ referencePT) (rt : RegIx)
    (disp : BitVec 19) : classify referenceFS referencePT (encodeCB key rt disp) = .cb mn rt disp := by
  rw [classify_of_slice h (key8_encodeCB key rt disp)]
  simp [PTEntry.record]

/-- The cascade reads an instruction's record from its encoding: the key that the encoder writes is the key of the
instruction's entry, row by row of R51. -/
theorem classify_encode (i : Instr) (h : i.wellFormed = true) :
    classify referenceFS referencePT (encode i) = i.toRecord := by
  cases i with
  | mul rd rn rm | sdiv rd rn rm | udiv rd rn rm | fadds rd rn rm | faddd rd rn rm | fcmps rd rn rm | fcmpd rd rn rm
  | fdivs rd rn rm | fdivd rd rn rm | fmuls rd rn rm | fmuld rd rn rm | fsubs rd rn rm | fsubd rd rn rm =>
    exact classify_encodeFixedShamt (by decide) rd rn rm
  | add rd rn rm shamt | adds rd rn rm shamt | and rd rn rm shamt | ands rd rn rm shamt | br rd rn rm shamt
  | eor rd rn rm shamt | lsl rd rn rm shamt | lsr rd rn rm shamt | orr rd rn rm shamt | sub rd rn rm shamt
  | subs rd rn rm shamt | smulh rd rn rm shamt | umulh rd rn rm shamt =>
    exact classify_encodeR (by decide) rd rn rm shamt
  | ldur rt rn imm | ldurb rt rn imm | ldurh rt rn imm | ldursw rt rn imm | ldxr rt rn imm | stur rt rn imm
  | sturb rt rn imm | sturh rt rn imm | sturw rt rn imm | stxr rt rn imm | ldurs rt rn imm | ldurd rt rn imm
  | sturs rt rn imm | sturd rt rn imm =>
    exact classify_encodeD (by decide) rt rn imm
  | addi rd rn imm | addis rd rn imm | andi rd rn imm | andis rd rn imm | eori rd rn imm | orri rd rn imm
  | subi rd rn imm | subis rd rn imm =>
    exact classify_encodeI (by decide) rd rn imm
  | movz rd hw imm | movk rd hw imm => exact classify_encodeIM (by decide) rd hw imm
  | b disp | bl disp => exact classify_encodeB (by decide) disp
  | bCond rt disp | cbz rt disp | cbnz rt disp => exact classify_encodeCB (by decide) rt disp
  | word w => 
    have hunknown : isKnownWord referenceFS referencePT w = false := by simpa [Instr.wellFormed] using h
    exact classify_of_unknown tablesWf_reference hunknown

/-- An instruction is determined by its record. -/
theorem Instr.eq_of_toRecord_eq {i j : Instr} (h : i.toRecord = j.toRecord) : i = j :=
  Option.some_injective _ (by rw [← Instr.ofRecord_toRecord i, h, Instr.ofRecord_toRecord])

/-- Settles O1: the cascade reads the instruction's own record from its encoding, and the record is the instruction's
alone. -/
theorem decodeOfEncodeIsTheInstruction : Obligations.DecodeOfEncodeIsTheInstruction :=
  fun i h => Instr.eq_of_toRecord_eq ((toRecord_decode (encode i)).trans (classify_encode i h))

end Sys2Proof

namespace Sys2Proof
/-! ## Encode of decode -/

@[simp] theorem FSEntry.source_record (e : FSEntry) (w : Word) : (e.record w).source = some (none, e.mnemonic) := rfl

@[simp] theorem PTEntry.source_record (e : PTEntry) (w : Word) :
    (e.record w).source = some (some e.format, e.mnemonic) := by
  rw [PTEntry.record]
  cases e.format <;> rfl

/-- The part of a word that a primary entry's record shows: all of it, but for bits 11..10 in format D (R43, R49). -/
def PTEntry.shown (e : PTEntry) (w : Word) : Word := if e.format = .d then w &&& 0xFFFFF3FF#32 else w

/-- Two words of one fixed-shamt entry with the same record are the same word. -/
theorem FSEntry.eq_of_record_eq {e : FSEntry} {w w' : Word} (hw : e.hits w = true) (hw' : e.hits w' = true)
    (h : e.record w = e.record w') : w = w' := by
  obtain ⟨-, hrd, hrn, hrm⟩ := Record.fixedShamt.inj h
  rw [← encodeFixedShamt_fields w, ← encodeFixedShamt_fields w', (e.hits_iff w).mp hw, (e.hits_iff w').mp hw',
    hrd, hrn, hrm]

/-- A primary entry's record shows no more of the word. -/
theorem PTEntry.record_shown (e : PTEntry) (w : Word) : e.record (e.shown w) = e.record w := by
  by_cases hf : e.format = .d
  · have hshown : e.shown w = encodeD (key11 w) (rdField w) (rnField w) (imm9Field w) := by
      rw [encodeD_fields, PTEntry.shown, if_pos hf]
    simp [PTEntry.record, hf, hshown]
  · rw [PTEntry.shown, if_neg hf]

/-- A primary entry's record shows no less of the word: the entry's key and the record's fields give it back. -/
theorem PTEntry.shown_eq_of_record_eq {e : PTEntry} (hlen : e.len = e.format.keyLength) {w w' : Word}
    (hw : e.hits w = true) (hw' : e.hits w' = true) (h : e.record w = e.record w') : e.shown w = e.shown w' := by
  have hle : e.len ≤ 32 := by rw [hlen]; cases e.format <;> decide
  have hkey : w.extractLsb' (32 - e.len) e.len = w'.extractLsb' (32 - e.len) e.len :=
    ((e.hits_iff hle w).mp hw).trans ((e.hits_iff hle w').mp hw').symm
  rw [hlen] at hkey
  unfold PTEntry.record at h
  unfold PTEntry.shown
  cases hf : e.format with
  | r =>
    rw [hf] at h hkey
    have hkey11 : key11 w = key11 w' := hkey
    obtain ⟨-, hrd, hrn, hrm, hshamt⟩ := Record.r.inj h
    show w = w'
    rw [← encodeR_fields w, ← encodeR_fields w', hkey11, hrd, hrn, hrm, hshamt]
  | d =>
    rw [hf] at h hkey
    have hkey11 : key11 w = key11 w' := hkey
    obtain ⟨-, hrt, hrn, himm⟩ := Record.d.inj h
    show w &&& 0xFFFFF3FF#32 = w' &&& 0xFFFFF3FF#32
    rw [← encodeD_fields, ← encodeD_fields, hkey11, hrt, hrn, himm]
  | i =>
    rw [hf] at h hkey
    have hkey10 : key10 w = key10 w' := hkey
    obtain ⟨-, hrd, hrn, himm⟩ := Record.i.inj h
    show w = w'
    rw [← encodeI_fields w, ← encodeI_fields w', hkey10, hrd, hrn, himm]
  | im =>
    rw [hf] at h hkey
    have hkey9 : key9 w = key9 w' := hkey
    obtain ⟨-, hrd, hhw, himm⟩ := Record.im.inj h
    show w = w'
    rw [← encodeIM_fields w, ← encodeIM_fields w', hkey9, hrd, hhw, himm]
  | b =>
    rw [hf] at h hkey
    have hkey6 : key6 w = key6 w' := hkey
    obtain ⟨-, hdisp⟩ := Record.b.inj h
    show w = w'
    rw [← encodeB_fields w, ← encodeB_fields w', hkey6, hdisp]
  | cb =>
    rw [hf] at h hkey
    have hkey8 : key8 w = key8 w' := hkey
    obtain ⟨-, hrt, hdisp⟩ := Record.cb.inj h
    show w = w'
    rw [← encodeCB_fields w, ← encodeCB_fields w', hkey8, hrt, hdisp]

/-- Two words of one primary entry have the same record exactly when they agree on what the record shows. -/
theorem PTEntry.record_eq_iff {e : PTEntry} (hlen : e.len = e.format.keyLength) {w w' : Word} (hw : e.hits w = true)
    (hw' : e.hits w' = true) : e.record w = e.record w' ↔ e.shown w = e.shown w' :=
  ⟨shown_eq_of_record_eq hlen hw hw', fun h => by rw [← record_shown, h, record_shown]⟩

/-- A word whose record is a fixed-shamt entry's matches that entry: the mnemonics of the reference FS are distinct. -/
theorem fsHits_of_classify_eq {e : FSEntry} (he : e ∈ referenceFS) {w w' : Word}
    (h : classify referenceFS referencePT w' = e.record w) : e.hits w' = true := by
  have hnames : (referenceFS.map (·.mnemonic)).Nodup := by decide
  have hsource := congrArg Record.source h
  rw [FSEntry.source_record] at hsource
  obtain ⟨e', he', hw', hc⟩ | ⟨e', -, -, hc⟩ | ⟨-, hc⟩ := classify_entry tablesWf_reference w'
  · rw [hc, FSEntry.source_record, Option.some_inj, Prod.mk_right_inj] at hsource
    rwa [eq_of_mem_of_nodup_map hnames he he' hsource.symm]
  · rw [hc, PTEntry.source_record] at hsource
    cases hsource
  · rw [hc] at hsource
    cases hsource

/-- A word whose record is a primary entry's matches that entry: format and mnemonic are distinct in the reference
PT. -/
theorem ptHits_of_classify_eq {e : PTEntry} (he : e ∈ referencePT) {w w' : Word}
    (h : classify referenceFS referencePT w' = e.record w) : e.hits w' = true := by
  have hnames : (referencePT.map fun e => (some e.format, e.mnemonic)).Nodup := by decide
  have hsource := congrArg Record.source h
  rw [PTEntry.source_record] at hsource
  obtain ⟨e', -, -, hc⟩ | ⟨e', he', hw', hc⟩ | ⟨-, hc⟩ := classify_entry tablesWf_reference w'
  · rw [hc, FSEntry.source_record] at hsource
    cases hsource
  · rw [hc, PTEntry.source_record, Option.some_inj] at hsource
    rwa [eq_of_mem_of_nodup_map hnames he he' hsource.symm]
  · rw [hc] at hsource
    cases hsource

/-- The reference cascade answers the unknown word only for that word, and only when it matches no entry (R69). -/
theorem unknown_of_classify_eq {w v : Word} (h : classify referenceFS referencePT w = .unknown v) :
    w = v ∧ isKnownWord referenceFS referencePT w = false := by
  obtain ⟨e, -, -, hc⟩ | ⟨e, -, -, hc⟩ | ⟨hunknown, hc⟩ := classify_entry tablesWf_reference w
  · have hsource := (e.source_record w).symm.trans (congrArg Record.source (hc.symm.trans h))
    cases hsource
  · have hsource := (e.source_record w).symm.trans (congrArg Record.source (hc.symm.trans h))
    cases hsource
  · exact ⟨Record.unknown.inj (hc.symm.trans h), hunknown⟩

/-- Only a fallback that holds a known word is ill-formed. -/
theorem Instr.wellFormed_of_unknown {i : Instr}
    (h : ∀ w, i.toRecord = .unknown w → isKnownWord referenceFS referencePT w = false) : i.wellFormed = true := by
  cases i with
  | word w => rw [Instr.wellFormed, h w rfl]; rfl
  | _ => rfl

/-- The decoder answers the fallback for unknown words only (R69). -/
theorem wellFormed_decode (w : Word) : (decode w).wellFormed = true := by
  refine Instr.wellFormed_of_unknown fun v hv => ?_
  obtain ⟨rfl, hunknown⟩ := unknown_of_classify_eq ((toRecord_decode w).symm.trans hv)
  exact hunknown

/-- The encoder writes bits 11..10 of a D-format word 0 (log entry 9). -/
theorem encodeD_and (key : BitVec 11) (rt rn : RegIx) (imm : BitVec 9) :
    encodeD key rt rn imm &&& 0xFFFFF3FF#32 = encodeD key rt rn imm := by
  rw [← encodeD_fields]
  simp

theorem encode_and_of_toRecord_d {i : Instr} {mn : Mnemonic} {rt rn : RegIx} {imm : BitVec 9}
    (h : i.toRecord = .d mn rt rn imm) : encode i &&& 0xFFFFF3FF#32 = encode i := by
  cases i with
  | ldur rt rn imm | ldurb rt rn imm | ldurh rt rn imm | ldursw rt rn imm | ldxr rt rn imm | stur rt rn imm
  | sturb rt rn imm | sturh rt rn imm | sturw rt rn imm | stxr rt rn imm | ldurs rt rn imm | ldurd rt rn imm
  | sturs rt rn imm | sturd rt rn imm =>
    exact encodeD_and _ rt rn imm
  | _ => cases h

theorem referencePT_len_eq {e : PTEntry} (he : e ∈ referencePT) : e.len = e.format.keyLength :=
  (keyLengthsOk_iff _).mp ((tablesWf_iff _ _).mp tablesWf_reference).2.1 e he

/-- Two words that the reference cascade classifies alike are equal, but for bits 11..10 where their record is of format
D. -/
theorem eq_or_masked_eq_of_classify_eq {w w' : Word}
    (h : classify referenceFS referencePT w' = classify referenceFS referencePT w) :
    w' = w ∨ (∃ mn rt rn imm, classify referenceFS referencePT w = .d mn rt rn imm) ∧
      w' &&& 0xFFFFF3FF#32 = w &&& 0xFFFFF3FF#32 := by
  obtain ⟨e, he, hw, hc⟩ | ⟨e, he, hw, hc⟩ | ⟨-, hc⟩ := classify_entry tablesWf_reference w
  · have hw' := fsHits_of_classify_eq he (h.trans hc)
    exact .inl (e.eq_of_record_eq hw' hw ((classify_reference_of_fsHits he hw').symm.trans (h.trans hc)))
  · have hw' := ptHits_of_classify_eq he (h.trans hc)
    have hshown := (e.record_eq_iff (referencePT_len_eq he) hw' hw).mp
      ((classify_reference_of_ptHits he hw').symm.trans (h.trans hc))
    by_cases hf : e.format = .d
    · refine .inr ⟨⟨_, _, _, _, by rw [hc, PTEntry.record, hf]⟩, ?_⟩
      simpa [PTEntry.shown, hf] using hshown
    · exact .inl (by simpa [PTEntry.shown, hf] using hshown)
  · exact .inl (unknown_of_classify_eq (h.trans hc)).1

/-- Settles O2: the decoding is well-formed, so encoding it gives a word that is classified alike (O1), which is the
word itself but for what the encoder writes into the two ignored bits. -/
theorem encodeOfDecodeRecoversTheWord : Obligations.EncodeOfDecodeRecoversTheWord := by
  intro w
  have hrecord := toRecord_decode w
  have hsame := (classify_encode _ (wellFormed_decode w)).trans hrecord
  refine ⟨wellFormed_decode w, fun ⟨mn, rt, rn, imm, hd⟩ => ?_, fun hnotD => ?_⟩
  · rw [← encode_and_of_toRecord_d hd]
    obtain heq | ⟨-, hmasked⟩ := eq_or_masked_eq_of_classify_eq hsame
    · rw [heq]
    · exact hmasked
  · obtain heq | ⟨hd, -⟩ := eq_or_masked_eq_of_classify_eq hsame
    · exact heq
    · exact absurd (hrecord ▸ hd) hnotD

end Sys2Proof

/-! ## An entry's key as a number, and how many words match it -/

namespace Sys2Proof

/-- The fixed-shamt key as a number: the opcode and then the shamt (R63). -/
theorem toNat_fsKey (w : Word) : (fsKey w).toNat = w.toNat / 2 ^ 21 * 2 ^ 6 + w.toNat / 2 ^ 10 % 2 ^ 6 := by
  have hshamt : (shamtField w).toNat = w.toNat / 2 ^ 10 % 2 ^ 6 := by
    rw [shamtField, BitVec.extractLsb'_toNat, Nat.shiftRight_eq_div_pow]
  have hkey : (key11 w).toNat = w.toNat / 2 ^ 21 := by
    rw [key11, BitVec.extractLsb'_toNat, Nat.shiftRight_eq_div_pow]
    omega
  rw [fsKey, BitVec.toNat_append, ← Nat.shiftLeft_add_eq_or_of_lt (shamtField w).isLt, hkey, hshamt, Nat.shiftLeft_eq]

/-- The top bits of a word as a number. -/
theorem toNat_topSlice (w : Word) {n : Nat} (h : n ≤ 32) :
    (w.extractLsb' (32 - n) n).toNat = w.toNat / 2 ^ (32 - n) := by
  rw [BitVec.extractLsb'_toNat, Nat.shiftRight_eq_div_pow]
  refine Nat.mod_eq_of_lt (Nat.div_lt_of_lt_mul ?_)
  rw [← pow_add, Nat.sub_add_cancel h]
  exact w.isLt

theorem FSEntry.hits_iff_toNat (e : FSEntry) (w : Word) :
    e.hits w = true ↔ w.toNat / 2 ^ 21 * 2 ^ 6 + w.toNat / 2 ^ 10 % 2 ^ 6 = e.key.toNat := by
  rw [e.hits_iff, ← BitVec.toNat_inj, toNat_fsKey]

theorem PTEntry.hits_iff_toNat (e : PTEntry) (h : e.len ≤ 32) (w : Word) :
    e.hits w = true ↔ w.toNat / 2 ^ (32 - e.len) = e.key.toNat := by
  rw [e.hits_iff h, ← BitVec.toNat_inj, toNat_topSlice w h]

/-- Settles O6: masking keeps exactly the bits that the key is cut from. -/
theorem matchAndMaskSayTheKey : Obligations.MatchAndMaskSayTheKey := by
  have hmasks : ∀ row ∈ [(11, 0xFFE00000#32), (10, 0xFFC00000#32), (9, 0xFF800000#32), (6, 0xFC000000#32),
      (8, 0xFF000000#32)], BitVec.allOnes 32 <<< (32 - row.1) = row.2 := by decide
  have hlens : ∀ n ∈ [11, 10, 9, 6, 8], n ≤ 32 := by decide
  refine ⟨FSEntry.hits_iff_toNat, rfl, fun e w => ⟨fun row hrow hlen => ?_, fun hlen => ?_⟩⟩
  · rw [PTEntry.mask, hlen]
    exact hmasks row hrow
  · exact e.hits_iff_toNat (hlens _ hlen) w

/-- Where no two of several tests hold together, the elements that satisfy one of them are as many as those that satisfy
each test, added up. -/
theorem card_filter_any {α β : Type} [DecidableEq α] {s : Finset α} {p : β → α → Bool} {l : List β}
    (h : l.Pairwise fun a b => ∀ x, ¬ (p a x = true ∧ p b x = true)) :
    (s.filter fun x => l.any (p · x) = true).card = (l.map fun a => (s.filter fun x => p a x = true).card).sum := by
  induction l with
  | nil => simp
  | cons a l ih =>
    obtain ⟨ha, hl⟩ := List.pairwise_cons.mp h
    have hdisjoint : Disjoint (s.filter fun x => p a x = true) (s.filter fun x => l.any (p · x) = true) := by
      refine Finset.disjoint_filter.mpr fun x _ hx hany => ?_
      obtain ⟨b, hb, hbx⟩ := List.any_eq_true.mp hany
      exact ha b hb x ⟨hx, hbx⟩
    rw [List.map_cons, List.sum_cons, ← ih hl, ← Finset.card_union_of_disjoint hdisjoint, ← Finset.filter_or]
    simp

/-- How many of the words with the given numbers satisfy a match/mask form (mask first). -/
def matchCount (s : Finset Nat) (a : Word × Word) : Nat :=
  (s.filter fun n => (BitVec.ofNat 32 n &&& a.1 == a.2) = true).card

/-- A fixed-shamt entry is matched by 2^15 words: bits 20..16 and 9..0 are free (R53). -/
theorem FSEntry.matchCount_form (e : FSEntry) : matchCount (Finset.range (2 ^ 32)) (fsMask, e.pattern) = 2 ^ 15 := by
  have hkey : e.key.toNat < 2 ^ 17 := e.key.isLt
  have hmem (n : Nat) : n ∈ ((Finset.range (2 ^ 32)).filter fun n => e.hits (BitVec.ofNat 32 n) = true) ↔
      n < 2 ^ 32 ∧ n / 2 ^ 21 * 2 ^ 6 + n / 2 ^ 10 % 2 ^ 6 = e.key.toNat := by
    rw [Finset.mem_filter, Finset.mem_range, e.hits_iff_toNat, BitVec.toNat_ofNat]
    exact and_congr_right fun hn => by rw [Nat.mod_eq_of_lt hn]
  have hfree : (Finset.range (2 ^ 5) ×ˢ Finset.range (2 ^ 10)).card = 2 ^ 15 := by
    rw [Finset.card_product, Finset.card_range, Finset.card_range]
    rfl
  rw [← hfree]
  refine Finset.card_nbij' (fun n => (n / 2 ^ 16 % 2 ^ 5, n % 2 ^ 10))
    (fun p => e.key.toNat / 2 ^ 6 * 2 ^ 21 + p.1 * 2 ^ 16 + e.key.toNat % 2 ^ 6 * 2 ^ 10 + p.2)
    (fun n _ => ?_) (fun p hp => (hmem _).mpr ?_) (fun n hn => ?_) (fun p hp => ?_)
  · simp [Nat.mod_lt]
  · simp only [Finset.mem_coe, Finset.mem_product, Finset.mem_range] at hp
    dsimp only
    omega
  · have hn' := (hmem n).mp hn
    dsimp only
    omega
  · simp only [Finset.mem_coe, Finset.mem_product, Finset.mem_range] at hp
    exact Prod.ext (by dsimp only; omega) (by dsimp only; omega)

/-- A primary entry is matched by the words of one interval: the bits below its key are free (R53). -/
theorem PTEntry.matchCount_form (e : PTEntry) (h : e.len ≤ 32) :
    matchCount (Finset.range (2 ^ 32)) (e.mask, e.pattern) = 2 ^ (32 - e.len) := by
  have hmem (n : Nat) : n ∈ ((Finset.range (2 ^ 32)).filter fun n => e.hits (BitVec.ofNat 32 n) = true) ↔
      n ∈ Finset.Ico (e.key.toNat * 2 ^ (32 - e.len)) ((e.key.toNat + 1) * 2 ^ (32 - e.len)) := by
    have hend : (e.key.toNat + 1) * 2 ^ (32 - e.len) ≤ 2 ^ 32 :=
      calc (e.key.toNat + 1) * 2 ^ (32 - e.len) ≤ 2 ^ e.len * 2 ^ (32 - e.len) := Nat.mul_le_mul_right _ e.key.isLt
        _ = 2 ^ 32 := by rw [← pow_add, Nat.add_sub_cancel' h]
    have hpos : 0 < 2 ^ (32 - e.len) := Nat.two_pow_pos _
    rw [Nat.add_one_mul] at hend
    rw [Finset.mem_filter, Finset.mem_range, Finset.mem_Ico, e.hits_iff_toNat h, BitVec.toNat_ofNat,
      Nat.div_eq_iff hpos, Nat.add_one_mul]
    omega
  have hcard := congrArg Finset.card (Finset.ext hmem)
  rw [Nat.card_Ico, ← Nat.sub_mul, Nat.add_sub_cancel_left, one_mul] at hcard
  exact hcard

/-- A word is known when it satisfies one of the match/mask forms of the reference tables (R48, R52). -/
theorem isKnownWord_reference (w : Word) :
    isKnownWord referenceFS referencePT w = referenceForms.any fun a => w &&& a.1 == a.2 := by
  rw [isKnownWord, referenceForms, List.any_append, List.any_map, List.any_map]
  rfl

/-- No word satisfies two forms of the reference tables (R26), so the known words are the words of each form, added
up. -/
theorem card_isKnownWord_reference (s : Finset Nat) :
    (s.filter fun n => isKnownWord referenceFS referencePT (BitVec.ofNat 32 n) = true).card =
      (referenceFS.map fun e => matchCount s (fsMask, e.pattern)).sum +
        (referencePT.map fun e => matchCount s (e.mask, e.pattern)).sum := by
  simp only [isKnownWord_reference]
  rw [card_filter_any (p := fun a n => BitVec.ofNat 32 n &&& a.1 == a.2)
    (referenceForms_conflict.imp fun hab _ ⟨ha, hb⟩ =>
      not_both_of_conflict hab (beq_iff_eq.mp ha) (beq_iff_eq.mp hb)),
    referenceForms, List.map_append, List.map_map, List.map_map, List.sum_append]
  rfl

/-- Settles O5: each entry of R51 adds a power of two for its free bits. -/
theorem knownWordsNumber291930112 : Obligations.KnownWordsNumber291930112 := by
  refine ⟨?_, by decide, by decide, by decide⟩
  rw [card_isKnownWord_reference, List.map_congr_left fun (e : FSEntry) _ => e.matchCount_form,
    List.map_congr_left fun (e : PTEntry) he => e.matchCount_form (referencePT_len_le e he)]
  decide

end Sys2Proof

/-! ## Every instruction completes with its line -/

namespace Sys2Proof.Machine

/-- An instruction answers a next state, with the line of its record as the newest response and nothing else changed. -/
theorem exec_of_render {i : Instr} {t : String} (h : render i.toRecord = t) (s : State) :
    exec i s = .next { s with responses := s.responses ++ [.line t] } := by
  rw [exec_eq, h]
  rfl

/-- A register after a separator (R70). -/
theorem append_reg (t sep : String) (n : RegIx) : t ++ sep ++ reg n = t ++ (sep ++ "X") ++ n.toNat.repr := by
  simp only [reg, decNat, String.append_assoc]

/- Each template's line with the fields read as numbers (R54). -/

theorem renderFixedShamt_eq (mn : Mnemonic) (rd rn rm : RegIx) :
    renderFixedShamt mn rd rn rm =
      mn ++ " X" ++ rd.toNat.repr ++ ", X" ++ rn.toNat.repr ++ ", X" ++ rm.toNat.repr := by
  rw [renderFixedShamt, append_reg, append_reg, append_reg]
  rfl

theorem shiftSuffix_eq (shamt : BitVec 6) :
    shiftSuffix shamt = if shamt.toNat = 0 then "" else ", LSL #" ++ shamt.toNat.repr := by
  have hzero : shamt = 0 ↔ shamt.toNat = 0 := BitVec.toNat_inj.symm
  simp only [shiftSuffix, hzero]
  rfl

theorem renderR_eq (mn : Mnemonic) (rd rn rm : RegIx) (shamt : BitVec 6) :
    renderR mn rd rn rm shamt =
      mn ++ " X" ++ rd.toNat.repr ++ ", X" ++ rn.toNat.repr ++ ", X" ++ rm.toNat.repr ++
        (if shamt.toNat = 0 then "" else ", LSL #" ++ shamt.toNat.repr) := by
  rw [← shiftSuffix_eq, ← renderFixedShamt_eq]
  rfl

theorem renderD_eq (mn : Mnemonic) (rt rn : RegIx) (imm : BitVec 9) :
    renderD mn rt rn imm =
      mn ++ " X" ++ rt.toNat.repr ++ ", [X" ++ rn.toNat.repr ++ ", #" ++ imm.toNat.repr ++ "]" := by
  rw [renderD, append_reg, append_reg]
  rfl

theorem renderI_eq (mn : Mnemonic) (rd rn : RegIx) (imm : BitVec 12) :
    renderI mn rd rn imm = mn ++ " X" ++ rd.toNat.repr ++ ", X" ++ rn.toNat.repr ++ ", #" ++ imm.toNat.repr := by
  rw [renderI, append_reg, append_reg]
  rfl

theorem renderIM_eq (mn : Mnemonic) (rd : RegIx) (hw : BitVec 2) (imm : BitVec 16) :
    renderIM mn rd hw imm =
      mn ++ " X" ++ rd.toNat.repr ++ ", #" ++ (imm.toNat * 2 ^ (16 * hw.toNat)).repr := by
  rw [renderIM, append_reg]
  rfl

/-- Sign extension is the two's-complement value (R74). -/
theorem sext_eq_toInt {n : Nat} (v : BitVec (n + 1)) : sext v = v.toInt := by
  rw [sext, BitVec.toInt_eq_msb_cond, BitVec.msb_eq_getLsbD_last]
  norm_cast

/-- A displacement in signed decimal is the sign of the field, and then four times its value (R71, R75). -/
theorem dec_mul_four (n : Int) :
    dec (n * 4) = if n < 0 then "-" ++ (-(n * 4)).toNat.repr else (n * 4).toNat.repr := by
  have hsign : n * 4 < 0 ↔ n < 0 := by omega
  simp only [dec, hsign]
  rfl

theorem renderB_eq (mn : Mnemonic) (disp : BitVec 26) :
    renderB mn disp = mn ++ " #" ++
      (if disp.toInt < 0 then "-" ++ (-(disp.toInt * 4)).toNat.repr else (disp.toInt * 4).toNat.repr) := by
  rw [renderB, dispB, sext_eq_toInt, dec_mul_four]

theorem renderCB_eq (mn : Mnemonic) (rt : RegIx) (disp : BitVec 19) :
    renderCB mn rt disp = mn ++ " X" ++ rt.toNat.repr ++ ", #" ++
      (if disp.toInt < 0 then "-" ++ (-(disp.toInt * 4)).toNat.repr else (disp.toInt * 4).toNat.repr) := by
  rw [renderCB, dispCB, sext_eq_toInt, dec_mul_four, append_reg]
  rfl

/- Below, `hdone` says that any instruction with a record of the family's format completes with the family's line; each
listed instruction has such a record by its row of the opcode table. -/

/-- Settles O8. -/
theorem fixedShamtInstructionsComplete : Obligations.FixedShamtInstructionsComplete := by
  intro rd rn rm s done
  have hdone (i : Instr) (mn : Mnemonic) (h : i.toRecord = .fixedShamt mn rd rn rm) : exec i s = done mn :=
    exec_of_render (by rw [h]; exact renderFixedShamt_eq mn rd rn rm) s
  exact ⟨hdone _ _ rfl, hdone _ _ rfl, hdone _ _ rfl, hdone _ _ rfl, hdone _ _ rfl, hdone _ _ rfl, hdone _ _ rfl,
    hdone _ _ rfl, hdone _ _ rfl, hdone _ _ rfl, hdone _ _ rfl, hdone _ _ rfl, hdone _ _ rfl⟩

/-- Settles O9. -/
theorem rFormatInstructionsComplete : Obligations.RFormatInstructionsComplete := by
  intro rd rn rm shamt s done
  have hdone (i : Instr) (mn : Mnemonic) (h : i.toRecord = .r mn rd rn rm shamt) : exec i s = done mn :=
    exec_of_render (by rw [h]; exact renderR_eq mn rd rn rm shamt) s
  exact ⟨hdone _ _ rfl, hdone _ _ rfl, hdone _ _ rfl, hdone _ _ rfl, hdone _ _ rfl, hdone _ _ rfl, hdone _ _ rfl,
    hdone _ _ rfl, hdone _ _ rfl, hdone _ _ rfl, hdone _ _ rfl, hdone _ _ rfl, hdone _ _ rfl⟩

/-- Settles O10. -/
theorem dFormatInstructionsComplete : Obligations.DFormatInstructionsComplete := by
  intro rt rn imm s done
  have hdone (i : Instr) (mn : Mnemonic) (h : i.toRecord = .d mn rt rn imm) : exec i s = done mn :=
    exec_of_render (by rw [h]; exact renderD_eq mn rt rn imm) s
  exact ⟨hdone _ _ rfl, hdone _ _ rfl, hdone _ _ rfl, hdone _ _ rfl, hdone _ _ rfl, hdone _ _ rfl, hdone _ _ rfl,
    hdone _ _ rfl, hdone _ _ rfl, hdone _ _ rfl, hdone _ _ rfl, hdone _ _ rfl, hdone _ _ rfl, hdone _ _ rfl⟩

/-- Settles O11. -/
theorem iFormatInstructionsComplete : Obligations.IFormatInstructionsComplete := by
  intro rd rn imm s done
  have hdone (i : Instr) (mn : Mnemonic) (h : i.toRecord = .i mn rd rn imm) : exec i s = done mn :=
    exec_of_render (by rw [h]; exact renderI_eq mn rd rn imm) s
  exact ⟨hdone _ _ rfl, hdone _ _ rfl, hdone _ _ rfl, hdone _ _ rfl, hdone _ _ rfl, hdone _ _ rfl, hdone _ _ rfl,
    hdone _ _ rfl⟩

/-- Settles O12. -/
theorem imFormatInstructionsComplete : Obligations.IMFormatInstructionsComplete := by
  intro rd hw imm s done
  have hdone (i : Instr) (mn : Mnemonic) (h : i.toRecord = .im mn rd hw imm) : exec i s = done mn :=
    exec_of_render (by rw [h]; exact renderIM_eq mn rd hw imm) s
  exact ⟨hdone _ _ rfl, hdone _ _ rfl⟩

/-- Settles O13. -/
theorem branchInstructionsComplete : Obligations.BranchInstructionsComplete := by
  refine ⟨?_, ?_⟩
  · intro disp s done
    have hdone (i : Instr) (mn : Mnemonic) (h : i.toRecord = .b mn disp) : exec i s = done mn :=
      exec_of_render (by rw [h]; exact renderB_eq mn disp) s
    exact ⟨hdone _ _ rfl, hdone _ _ rfl⟩
  · intro rt disp s done
    have hdone (i : Instr) (mn : Mnemonic) (h : i.toRecord = .cb mn rt disp) : exec i s = done mn :=
      exec_of_render (by rw [h]; exact renderCB_eq mn rt disp) s
    exact ⟨hdone _ _ rfl, hdone _ _ rfl, hdone _ _ rfl⟩

end Sys2Proof.Machine

/-! ## What a line shows: the templates read back -/

namespace Sys2Proof.Machine

/-- A text that a number can stand before: it does not go on with a digit. -/
def endsNumber (t : String) : Bool := t.toList.head?.all (!·.isDigit)

/-- A separator ends a number, whatever comes after it. -/
theorem endsNumber_append {sep : String} (hne : sep ≠ "") (hsep : endsNumber sep = true) (t : String) :
    endsNumber (sep ++ t) = true := by
  have hlist : sep.toList ≠ [] := by simpa using hne
  rwa [endsNumber, String.toList_append, List.head?_append_of_ne_nil _ hlist]

theorem isDigit_of_mem_decNat {n : Nat} {c : Char} (h : c ∈ (decNat n).toList) : c.isDigit = true := by
  rw [decNat, Nat.repr_eq_ofList_toDigits, String.toList_ofList] at h
  exact Nat.isDigit_of_mem_toDigits (by decide) (by decide) h

/-- The digits that a text starts with are those of the number that it starts with. -/
theorem takeWhile_isDigit_decNat_append (n : Nat) {t : String} (ht : endsNumber t = true) :
    (decNat n ++ t).toList.takeWhile Char.isDigit = (decNat n).toList := by
  have hrest : t.toList.takeWhile Char.isDigit = [] := by
    unfold endsNumber at ht
    cases hl : t.toList with
    | nil => rfl
    | cons c cs => simpa [hl] using ht
  rw [String.toList_append, List.takeWhile_append_of_pos fun c hc => isDigit_of_mem_decNat hc, hrest, List.append_nil]

/-- A number and the text after it are read back from the two put together (R71). -/
theorem decNat_append_inj {a b : Nat} {s t : String} (hs : endsNumber s = true) (ht : endsNumber t = true)
    (h : decNat a ++ s = decNat b ++ t) : a = b ∧ s = t := by
  have hdigits := congrArg (fun u => u.toList.takeWhile Char.isDigit) h
  simp only [takeWhile_isDigit_decNat_append _ hs, takeWhile_isDigit_decNat_append _ ht] at hdigits
  obtain rfl : a = b := Nat.repr_injective (String.toList_injective hdigits)
  exact ⟨rfl, (String.append_right_inj _).mp h⟩

/-- A register and the text after it are read back from the two put together (R70). -/
theorem reg_append_inj {n m : RegIx} {s t : String} (hs : endsNumber s = true) (ht : endsNumber t = true)
    (h : reg n ++ s = reg m ++ t) : n = m ∧ s = t := by
  rw [reg, reg, String.append_assoc, String.append_assoc, String.append_right_inj] at h
  obtain ⟨hnum, hrest⟩ := decNat_append_inj hs ht h
  exact ⟨BitVec.eq_of_toNat_eq hnum, hrest⟩

/-- A register before a separator is read back, and so is the text after the separator. -/
theorem reg_sep_inj {n m : RegIx} {sep s t : String} (hne : sep ≠ "") (hsep : endsNumber sep = true)
    (h : reg n ++ (sep ++ s) = reg m ++ (sep ++ t)) : n = m ∧ s = t := by
  obtain ⟨hreg, hrest⟩ := reg_append_inj (endsNumber_append hne hsep s) (endsNumber_append hne hsep t) h
  exact ⟨hreg, (String.append_right_inj _).mp hrest⟩

theorem reg_inj {n m : RegIx} (h : reg n = reg m) : n = m :=
  BitVec.eq_of_toNat_eq (Nat.repr_injective ((String.append_right_inj _).mp h))

/-- A minus does not start a number without a sign. -/
theorem minus_append_ne_decNat (t : String) (n : Nat) : "-" ++ t ≠ decNat n := fun h => by
  have hminus : '-' ∈ (decNat n).toList := by simp [← h]
  exact absurd (isDigit_of_mem_decNat hminus) (by decide)

/-- Signed decimal text determines the number (R71). -/
theorem dec_inj {n m : Int} (h : dec n = dec m) : n = m := by
  unfold dec at h
  split at h <;> split at h
  · have := Nat.repr_injective ((String.append_right_inj _).mp h)
    omega
  · exact absurd h (minus_append_ne_decNat _ _)
  · exact absurd h.symm (minus_append_ne_decNat _ _)
  · have := Nat.repr_injective h
    omega

/-- Four times the signed value of a field determines the field (R75). -/
theorem sext_mul_four_inj {n : Nat} {v v' : BitVec (n + 1)} (h : sext v * 4 = sext v' * 4) : v = v' := by
  rw [sext_eq_toInt, sext_eq_toInt] at h
  exact BitVec.eq_of_toInt_eq (by omega)

theorem shiftSuffix_endsNumber (shamt : BitVec 6) : endsNumber (shiftSuffix shamt) = true := by
  unfold shiftSuffix
  split
  · decide
  · exact endsNumber_append (by decide) (by decide) _

theorem shiftSuffix_inj {a b : BitVec 6} (h : shiftSuffix a = shiftSuffix b) : a = b := by
  unfold shiftSuffix at h
  split at h <;> split at h
  · simp [*]
  · simp at h
  · simp at h
  · exact BitVec.eq_of_toNat_eq (Nat.repr_injective ((String.append_right_inj _).mp h))

/- Each template with a fixed mnemonic shows its fields, format IM only the value of two of them (R49, R54). -/

theorem renderR_inj {mn : Mnemonic} {rd rn rm rd' rn' rm' : RegIx} {shamt shamt' : BitVec 6}
    (h : renderR mn rd rn rm shamt = renderR mn rd' rn' rm' shamt') :
    rd = rd' ∧ rn = rn' ∧ rm = rm' ∧ shamt = shamt' := by
  simp only [renderR, String.append_assoc, String.append_right_inj] at h
  obtain ⟨hrd, h⟩ := reg_sep_inj (by decide) (by decide) h
  obtain ⟨hrn, h⟩ := reg_sep_inj (by decide) (by decide) h
  obtain ⟨hrm, h⟩ := reg_append_inj (shiftSuffix_endsNumber _) (shiftSuffix_endsNumber _) h
  exact ⟨hrd, hrn, hrm, shiftSuffix_inj h⟩

theorem renderFixedShamt_inj {mn : Mnemonic} {rd rn rm rd' rn' rm' : RegIx}
    (h : renderFixedShamt mn rd rn rm = renderFixedShamt mn rd' rn' rm') : rd = rd' ∧ rn = rn' ∧ rm = rm' := by
  simp only [renderFixedShamt, String.append_assoc, String.append_right_inj] at h
  obtain ⟨hrd, h⟩ := reg_sep_inj (by decide) (by decide) h
  obtain ⟨hrn, h⟩ := reg_sep_inj (by decide) (by decide) h
  exact ⟨hrd, hrn, reg_inj h⟩

theorem renderD_inj {mn : Mnemonic} {rt rn rt' rn' : RegIx} {imm imm' : BitVec 9}
    (h : renderD mn rt rn imm = renderD mn rt' rn' imm') : rt = rt' ∧ rn = rn' ∧ imm = imm' := by
  simp only [renderD, String.append_assoc, String.append_right_inj] at h
  obtain ⟨hrt, h⟩ := reg_sep_inj (by decide) (by decide) h
  obtain ⟨hrn, h⟩ := reg_sep_inj (by decide) (by decide) h
  obtain ⟨himm, -⟩ := decNat_append_inj (by decide) (by decide) h
  exact ⟨hrt, hrn, BitVec.eq_of_toNat_eq himm⟩

theorem renderI_inj {mn : Mnemonic} {rd rn rd' rn' : RegIx} {imm imm' : BitVec 12}
    (h : renderI mn rd rn imm = renderI mn rd' rn' imm') : rd = rd' ∧ rn = rn' ∧ imm = imm' := by
  simp only [renderI, String.append_assoc, String.append_right_inj] at h
  obtain ⟨hrd, h⟩ := reg_sep_inj (by decide) (by decide) h
  obtain ⟨hrn, h⟩ := reg_sep_inj (by decide) (by decide) h
  exact ⟨hrd, hrn, BitVec.eq_of_toNat_eq (Nat.repr_injective h)⟩

theorem renderIM_eq_iff {mn : Mnemonic} {rd rd' : RegIx} {hw hw' : BitVec 2} {imm imm' : BitVec 16} :
    renderIM mn rd hw imm = renderIM mn rd' hw' imm' ↔ rd = rd' ∧ imValue hw imm = imValue hw' imm' := by
  refine ⟨fun h => ?_, fun ⟨hrd, hval⟩ => by rw [renderIM, renderIM, hrd, hval]⟩
  simp only [renderIM, String.append_assoc, String.append_right_inj] at h
  obtain ⟨hrd, h⟩ := reg_sep_inj (by decide) (by decide) h
  exact ⟨hrd, Nat.repr_injective h⟩

theorem renderB_inj {mn : Mnemonic} {disp disp' : BitVec 26} (h : renderB mn disp = renderB mn disp') :
    disp = disp' :=
  sext_mul_four_inj (dec_inj ((String.append_right_inj _).mp h))

theorem renderCB_inj {mn : Mnemonic} {rt rt' : RegIx} {disp disp' : BitVec 19}
    (h : renderCB mn rt disp = renderCB mn rt' disp') : rt = rt' ∧ disp = disp' := by
  simp only [renderCB, String.append_assoc, String.append_right_inj] at h
  obtain ⟨hrt, h⟩ := reg_sep_inj (by decide) (by decide) h
  exact ⟨hrt, sext_mul_four_inj (dec_inj h)⟩

/-- The value of a non-zero immediate lies in the 16-bit field that hw selects, so it bounds hw (R76). -/
theorem hw_le_of_imValue_eq {hw hw' : BitVec 2} {imm imm' : BitVec 16} (hne : imm ≠ 0)
    (h : imValue hw imm = imValue hw' imm') : hw.toNat ≤ hw'.toNat := by
  by_contra hlt
  have hpos : 1 ≤ imm.toNat := Nat.pos_of_ne_zero fun h0 => hne (BitVec.eq_of_toNat_eq h0)
  have hlow : imValue hw' imm' < imValue hw imm :=
    calc imm'.toNat * 2 ^ (16 * hw'.toNat) < 2 ^ 16 * 2 ^ (16 * hw'.toNat) :=
          Nat.mul_lt_mul_of_pos_right imm'.isLt (Nat.two_pow_pos _)
      _ = 2 ^ (16 + 16 * hw'.toNat) := (pow_add ..).symm
      _ ≤ 2 ^ (16 * hw.toNat) := Nat.pow_le_pow_right (by decide) (by omega)
      _ ≤ imm.toNat * 2 ^ (16 * hw.toNat) := Nat.le_mul_of_pos_left _ hpos
  omega

/-- The IM value shows hw and the immediate, unless the immediate is zero (R49, R76). -/
theorem imValue_eq_iff {hw hw' : BitVec 2} {imm imm' : BitVec 16} :
    imValue hw imm = imValue hw' imm' ↔ (hw = hw' ∧ imm = imm') ∨ (imm = 0 ∧ imm' = 0) := by
  have hzero (k : BitVec 2) (v : BitVec 16) : imValue k v = 0 ↔ v = 0 := by
    simp [imValue, ← BitVec.toNat_inj]
  refine ⟨fun h => ?_, ?_⟩
  · by_cases himm : imm = 0
    · exact .inr ⟨himm, (hzero hw' imm').mp (h ▸ (hzero hw imm).mpr himm)⟩
    · have himm' : imm' ≠ 0 := fun h0 => himm ((hzero hw imm).mp (h ▸ (hzero hw' imm').mpr h0))
      obtain rfl : hw = hw' :=
        BitVec.eq_of_toNat_eq (le_antisymm (hw_le_of_imValue_eq himm h) (hw_le_of_imValue_eq himm' h.symm))
      exact .inl ⟨rfl, BitVec.eq_of_toNat_eq (Nat.eq_of_mul_eq_mul_right (Nat.two_pow_pos _) h)⟩
  · rintro (⟨rfl, rfl⟩ | ⟨himm, himm'⟩)
    · rfl
    · rw [(hzero hw imm).mpr himm, (hzero hw' imm').mpr himm']

/-- Outside format IM two words of one primary entry render alike only with the same record. -/
theorem record_eq_of_render_eq {e : PTEntry} (hf : e.format ≠ .im) {w w' : Word}
    (h : render (e.record w) = render (e.record w')) : e.record w = e.record w' := by
  unfold PTEntry.record at h ⊢
  cases hformat : e.format with
  | r =>
    rw [hformat] at h
    obtain ⟨hrd, hrn, hrm, hshamt⟩ := renderR_inj h
    simp only [hrd, hrn, hrm, hshamt]
  | d =>
    rw [hformat] at h
    obtain ⟨hrt, hrn, himm⟩ := renderD_inj h
    simp only [hrt, hrn, himm]
  | i =>
    rw [hformat] at h
    obtain ⟨hrd, hrn, himm⟩ := renderI_inj h
    simp only [hrd, hrn, himm]
  | im => exact absurd hformat hf
  | b =>
    rw [hformat] at h
    simp only [renderB_inj h]
  | cb =>
    rw [hformat] at h
    obtain ⟨hrt, hdisp⟩ := renderCB_inj h
    simp only [hrt, hdisp]

/-- Two words of one format-IM entry render alike exactly when they have the same record, or the same register and two
zero immediates (R49). -/
theorem render_record_eq_iff_of_im {e : PTEntry} (hf : e.format = .im) (w w' : Word) :
    render (e.record w) = render (e.record w') ↔ e.record w = e.record w' ∨
      (imm16Field w = 0 ∧ imm16Field w' = 0 ∧ rdField w = rdField w') := by
  have hrecord (v : Word) : e.record v = .im e.mnemonic (rdField v) (hwField v) (imm16Field v) := by
    rw [PTEntry.record, hf]
  rw [hrecord, hrecord, Record.im.injEq]
  refine renderIM_eq_iff.trans ?_
  rw [imValue_eq_iff]
  tauto

/- Two fields as numbers (R73), as O30 writes them. -/

theorem imm16Field_eq_zero_iff (w : Word) : imm16Field w = 0 ↔ w.toNat / 2 ^ 5 % 2 ^ 16 = 0 := by
  rw [← BitVec.toNat_inj, imm16Field, BitVec.extractLsb'_toNat, Nat.shiftRight_eq_div_pow]
  rfl

theorem rdField_eq_iff (w w' : Word) : rdField w = rdField w' ↔ w.toNat % 2 ^ 5 = w'.toNat % 2 ^ 5 := by
  rw [← BitVec.toNat_inj, rdField, rdField, BitVec.extractLsb'_toNat, BitVec.extractLsb'_toNat]
  rfl

/-- Settles O30: a line is the rendering of the entry's record, a rendering shows the record but for the IM value of a
zero immediate, and a record shows the word but for the two ignored bits of format D. -/
theorem oneEntryRendersDistinctWordsDistinctly : Obligations.OneEntryRendersDistinctWordsDistinctly := by
  intro w w' same
  refine ⟨fun e he hw hw' hsame => ?_, fun e he hw hw' => ?_⟩
  · simp only [same, decodeText, classify_reference_of_fsHits he hw, classify_reference_of_fsHits he hw'] at hsame
    obtain ⟨hrd, hrn, hrm⟩ := renderFixedShamt_inj hsame
    exact e.eq_of_record_eq hw hw' (by simp only [FSEntry.record, hrd, hrn, hrm])
  · have hsame : same ↔ render (e.record w) = render (e.record w') := by
      simp only [same, decodeText, classify_reference_of_ptHits he hw, classify_reference_of_ptHits he hw']
    have hrender (hf : e.format ≠ .im) : same ↔ e.shown w = e.shown w' := by
      rw [hsame, ← e.record_eq_iff (referencePT_len_eq he) hw hw']
      exact ⟨record_eq_of_render_eq hf, congrArg render⟩
    refine ⟨fun hd him hs => ?_, fun hd => ?_, fun him => ?_⟩
    · simpa [PTEntry.shown, hd] using (hrender him).mp hs
    · simpa [PTEntry.shown, hd] using hrender (by rw [hd]; decide)
    · have hshown (v : Word) : e.shown v = v := by simp [PTEntry.shown, him]
      rw [hsame, render_record_eq_iff_of_im him, e.record_eq_iff (referencePT_len_eq he) hw hw', hshown, hshown,
        imm16Field_eq_zero_iff, imm16Field_eq_zero_iff, rdField_eq_iff]

end Sys2Proof.Machine

/-! ## The cascade as a search: the first outcome, in step order, that hits -/

namespace Sys2Proof

/-- The cascade answers the first probe outcome that hits, and the unknown word when none does (R61, R69). -/
theorem classify_eq_findSome? (fs : List FSEntry) (pt : List PTEntry) (w : Word) :
    classify fs pt w = ((probeOutcomes fs pt w).findSome? id).getD (.unknown w) := by
  unfold classify probeOutcomes
  repeat' split
  all_goals simp [*]

/-- Selecting the outcome at the priority encoder's position is searching for the first outcome that hits (R65). -/
theorem priorityEncode_bind_getElem? {α : Type} (l : List (Option α)) :
    ((priorityEncode (l.map Option.isSome)).bind fun n => l[n]?.join) = l.findSome? id := by
  induction l with
  | nil => rfl
  | cons o l ih =>
    cases o with
    | some a => rfl
    | none =>
      rw [List.findSome?_cons, ← ih]
      simp [priorityEncode, Option.bind_map]

theorem classifyParallel_eq_classify (fs : List FSEntry) (pt : List PTEntry) (w : Word) :
    classifyParallel fs pt w = classify fs pt w := by
  rw [classify_eq_findSome?, ← priorityEncode_bind_getElem?, classifyParallel]
  cases priorityEncode ((probeOutcomes fs pt w).map Option.isSome) <;> rfl

/-- Settles O28: the encoder finds the same probe as the cascade's search. -/
theorem parallelLookupEqualsCascade : Obligations.ParallelLookupEqualsCascade := fun fs pt w =>
  have h := classifyParallel_eq_classify fs pt w
  ⟨h, by rw [h]; rfl⟩

/-- With unique keys, looking up the top bits of a word that matches an entry of that length answers the entry (R10,
R48). -/
theorem lookupPT_of_hits {fs : List FSEntry} {pt : List PTEntry} (h : keysUnique fs pt = true) {e : PTEntry}
    (he : e ∈ pt) {w : Word} (hw : e.hits w = true) {n : Nat} (hn : e.len = n) (hn32 : n ≤ 32) :
    lookupPT pt (w.extractLsb' (32 - n) n) = some (e.mnemonic, e.format) := by
  subst hn
  exact lookupPT_of_mem h he rfl (congrArg BitVec.toNat ((e.hits_iff hn32 w).mp hw).symm)

/-- Looking up the top bits of a word misses when the word matches no entry of that length (R10, R48). -/
theorem lookupPT_of_misses {pt : List PTEntry} {w : Word} {n : Nat} (hn : n ≤ 32)
    (h : ∀ e, ¬ (e ∈ pt ∧ e.len = n ∧ e.hits w = true)) : lookupPT pt (w.extractLsb' (32 - n) n) = none := by
  refine lookupPT_none.mpr fun e he hlen hkey => h e ⟨he, hlen, ?_⟩
  subst hlen
  exact (e.hits_iff hn w).mpr (BitVec.eq_of_toNat_eq hkey.symm)

/-- The fixed-shamt probe misses when the word matches no entry of FS (R61, R63). -/
theorem probeFixedShamt_of_misses {fs : List FSEntry} {w : Word} (h : ∀ e ∈ fs, e.hits w = false) :
    probeFixedShamt fs w = none := by
  have hl : lookupFS fs (fsKey w) = none := lookupFS_none.mpr fun e he hkey =>
    Bool.false_ne_true ((h e he).symm.trans ((e.hits_iff w).mpr hkey.symm))
  rw [probeFixedShamt, hl]

/-- An entry of a well-formed table has a format of its key's length (R25(b)). -/
theorem keyLength_of_mem {fs : List FSEntry} {pt : List PTEntry} (h : tablesWf fs pt = true) {e : PTEntry}
    (he : e ∈ pt) : e.len = e.format.keyLength := by
  obtain ⟨-, hlens, -⟩ := (tablesWf_iff fs pt).mp h
  exact (keyLengthsOk_iff pt).mp hlens e he


theorem Format.keyLength_le (f : Format) : f.keyLength ≤ 32 := by cases f <;> decide

/-- The primary probe that finds entries of a format (R61, R66). -/
def probeOf (pt : List PTEntry) (w : Word) : Format → Option Record
  | .r | .d => probe11 pt w
  | .i => probe10 pt w
  | .im => probe9 pt w
  | .b => probe6 pt w
  | .cb => probe8 pt w

theorem probeOutcomes_eq (fs : List FSEntry) (pt : List PTEntry) (w : Word) :
    probeOutcomes fs pt w = [probeFixedShamt fs w, probeOf pt w .r, probeOf pt w .i, probeOf pt w .im, probeOf pt w .b,
      probeOf pt w .cb] := rfl

/-- In a well-formed pair, the probe of a matching entry's format answers that entry's record. -/
theorem probeOf_of_hits {fs : List FSEntry} {pt : List PTEntry} (h : tablesWf fs pt = true) {e : PTEntry}
    (he : e ∈ pt) {w : Word} (hw : e.hits w = true) : probeOf pt w e.format = some (e.record w) := by
  obtain ⟨hkeys, -, -⟩ := (tablesWf_iff fs pt).mp h
  have hl := lookupPT_of_hits hkeys he hw (keyLength_of_mem h he) e.format.keyLength_le
  unfold PTEntry.record
  generalize e.format = f at hl ⊢
  cases f with
  | r | d => rw [probeOf, probe11, show lookupPT pt (key11 w) = _ from hl]
  | i => rw [probeOf, probe10, show lookupPT pt (key10 w) = _ from hl]
  | im => rw [probeOf, probe9, show lookupPT pt (key9 w) = _ from hl]
  | b => rw [probeOf, probe6, show lookupPT pt (key6 w) = _ from hl]
  | cb => rw [probeOf, probe8, show lookupPT pt (key8 w) = _ from hl]

/-- A primary probe misses when the word matches no entry of its key length. -/
theorem probeOf_of_misses {pt : List PTEntry} {w : Word} {f : Format}
    (h : ∀ e, ¬ (e ∈ pt ∧ e.len = f.keyLength ∧ e.hits w = true)) : probeOf pt w f = none := by
  have hl := lookupPT_of_misses f.keyLength_le h
  cases f with
  | r | d => rw [probeOf, probe11, show lookupPT pt (key11 w) = _ from hl]
  | i => rw [probeOf, probe10, show lookupPT pt (key10 w) = _ from hl]
  | im => rw [probeOf, probe9, show lookupPT pt (key9 w) = _ from hl]
  | b => rw [probeOf, probe6, show lookupPT pt (key6 w) = _ from hl]
  | cb => rw [probeOf, probe8, show lookupPT pt (key8 w) = _ from hl]

/- The key length tells the format, but for the two formats that share the 11-bit probe (R25(b), R66). -/

theorem Format.eq_r_or_d_of_keyLength {f : Format} : 11 = f.keyLength → f = .r ∨ f = .d := by cases f <;> decide
theorem Format.eq_i_of_keyLength {f : Format} : 10 = f.keyLength → f = .i := by cases f <;> decide
theorem Format.eq_im_of_keyLength {f : Format} : 9 = f.keyLength → f = .im := by cases f <;> decide
theorem Format.eq_b_of_keyLength {f : Format} : 6 = f.keyLength → f = .b := by cases f <;> decide
theorem Format.eq_cb_of_keyLength {f : Format} : 8 = f.keyLength → f = .cb := by cases f <;> decide

/-- Settles O27: the output is the record of the first probe that answers; a word that matches no entry of a step makes
its probe miss, and one that matches an entry makes the probe of the entry's format answer the entry's record. -/
theorem cascadeTakesTheLowestStep : Obligations.CascadeTakesTheLowestStep := by
  intro fs pt hwf w out hit misses
  obtain ⟨hkeys, -, -⟩ := (tablesWf_iff fs pt).mp hwf
  have hout : out = Machine.render (((probeOutcomes fs pt w).findSome? id).getD (.unknown w)) := by
    rw [← classify_eq_findSome?]; rfl
  rw [probeOutcomes_eq] at hout
  have hprobe {e : PTEntry} {n : Nat} (h : hit e n) :
      n = e.format.keyLength ∧ probeOf pt w e.format = some (e.record w) := by
    obtain ⟨he, rfl, hw⟩ := h
    exact ⟨keyLength_of_mem hwf he, probeOf_of_hits hwf he hw⟩
  refine ⟨fun e he hw => ?_, fun hfs => ⟨fun e he => ?_, fun hmiss11 => ?_⟩⟩
  · rw [hout, probeFixedShamt_of_hits hkeys he hw]; rfl
  all_goals rw [probeFixedShamt_of_misses hfs] at hout
  · obtain ⟨hlen, hp⟩ := hprobe he
    rw [PTEntry.record] at hp
    obtain hf | hf := Format.eq_r_or_d_of_keyLength hlen
    · rw [hf] at hp
      exact .inl ⟨hf, by rw [hout, hp]; rfl⟩
    · rw [hf] at hp
      have hp' : probeOf pt w .r = _ := hp  -- both formats have the 11-bit probe
      exact .inr ⟨hf, by rw [hout, hp']; rfl⟩
  rw [probeOf_of_misses (f := .r) hmiss11] at hout
  refine ⟨fun e he => ?_, fun hmiss10 => ?_⟩
  · obtain ⟨hlen, hp⟩ := hprobe he
    rw [PTEntry.record, Format.eq_i_of_keyLength hlen] at hp
    rw [hout, hp]; rfl
  rw [probeOf_of_misses (f := .i) hmiss10] at hout
  refine ⟨fun e he => ?_, fun hmiss9 => ?_⟩
  · obtain ⟨hlen, hp⟩ := hprobe he
    rw [PTEntry.record, Format.eq_im_of_keyLength hlen] at hp
    rw [hout, hp]; rfl
  rw [probeOf_of_misses (f := .im) hmiss9] at hout
  refine ⟨fun e he => ?_, fun hmiss6 => ?_⟩
  · obtain ⟨hlen, hp⟩ := hprobe he
    rw [PTEntry.record, Format.eq_b_of_keyLength hlen] at hp
    rw [hout, hp]; rfl
  rw [probeOf_of_misses (f := .b) hmiss6] at hout
  refine ⟨fun e he => ?_, fun hmiss8 => ?_⟩
  · obtain ⟨hlen, hp⟩ := hprobe he
    rw [PTEntry.record, Format.eq_cb_of_keyLength hlen] at hp
    rw [hout, hp]; rfl
  rw [hout, probeOf_of_misses (f := .cb) hmiss8]; rfl

end Sys2Proof

/-! ## The fallback line, empty tables, and a line for every word -/

namespace Sys2Proof.Machine

/-- The fallback line as one literal on each side of the digits (R69). -/
theorem renderUnknown_eq (w : Word) : renderUnknown w = ".word 0x" ++ hex8 w ++ "    // unknown" := by
  rw [renderUnknown, String.append_assoc]
  rfl

/-- A word that matches no entry of a well-formed pair gets the fallback line (R69). -/
theorem decodeText_of_unknown {fs : List FSEntry} {pt : List PTEntry} (h : tablesWf fs pt = true) {w : Word}
    (hw : isKnownWord fs pt w = false) : decodeText fs pt w = ".word 0x" ++ hex8 w ++ "    // unknown" := by
  rw [decodeText, classify_of_unknown h hw]
  exact renderUnknown_eq w

/-- A block of the default tables renders every word as the block's function does (R28, R61). -/
theorem renders_decodeText (w : Word) : Renders w (decodeText referenceFS referencePT w) := by
  intro s rest ⟨hfs, hpt⟩ hq
  have hwf : tablesWf s.fs s.pt = true := by rw [hfs, hpt, tablesWf_reference]
  have hans : answer s.fs s.pt (.word w) = .line (decodeText referenceFS referencePT w) := by rw [hfs, hpt]; rfl
  rw [step_of_requests_cons hwf hq, hans]
  rfl

/-- Settles O25. -/
theorem unknownWordsRenderTheFallback : Obligations.UnknownWordsRenderTheFallback := by
  have hall (w : Word) (hw : isKnownWord referenceFS referencePT w = false) :
      Renders w (".word 0x" ++ hex8 w ++ "    // unknown") := by
    rw [← decodeText_of_unknown tablesWf_reference hw]
    exact renders_decodeText w
  have hzero : ".word 0x" ++ hex8 0x00000000#32 ++ "    // unknown" = ".word 0x00000000    // unknown" := by decide
  exact ⟨hall, hzero ▸ hall 0x00000000#32 (by decide)⟩

/-- Settles O14. -/
theorem fallbackCompletes : Obligations.FallbackCompletes := fun w s =>
  exec_of_render (i := .word w) (by rw [← String.append_assoc]; exact renderUnknown_eq w) s

/-- Settles O29: every lookup in an empty list misses, and no word matches an entry of an empty pair. -/
theorem emptyTablesMissEverywhere : Obligations.EmptyTablesMissEverywhere := by
  intro w
  have hwf : tablesWf [] [] = true := by decide
  have hmiss (f : Format) : probeOf [] w f = none := probeOf_of_misses fun _ ⟨he, _⟩ => List.not_mem_nil he
  exact ⟨rfl, ⟨hmiss .r, hmiss .i, hmiss .im, hmiss .b, hmiss .cb⟩, decodeText_of_unknown hwf rfl, hwf⟩

/-- Settles O47: the cascade answers an entry's record or the unknown word, no template renders the empty text, and a
step with well-formed tables and a request answers it. -/
theorem everyWordGetsANonEmptyLine : Obligations.EveryWordGetsANonEmptyLine := by
  intro fs pt hwf w
  refine ⟨render_ne_empty _, ?_, fun rest old => step_of_requests_cons (q := .word w) (rest := rest) hwf rfl⟩
  have hknown {r : Record} {p : Option Format × Mnemonic} (h : r.source = some p) (v : Word) : r ≠ .unknown v := by
    rintro rfl
    cases h
  obtain ⟨e, -, -, hc⟩ | ⟨e, -, -, hc⟩ | ⟨-, hc⟩ := classify_entry hwf w
  · exact .inr ⟨_, hknown (e.source_record w), congrArg render hc⟩
  · exact .inr ⟨_, hknown (e.source_record w), congrArg render hc⟩
  · exact .inl (congrArg render hc)

/-- Where a property gives every state a next one that has it too, every run from such a state ends in a next state. -/
theorem safeRun_of_step {P : State → Prop} (hstep : ∀ s, P s → ∃ t, step s = .next t ∧ P t) {s : State}
    (hs : P s) : SafeRun s := by
  intro n
  induction n generalizing s with
  | zero => exact ⟨s, rfl⟩
  | succ n ih =>
    obtain ⟨t, ht, hPt⟩ := hstep s hs
    rw [run_succ_of_step ht]
    exact ih hPt

/-- Well-formed tables give a step a next state, whatever is requested (R60, R187). -/
theorem exists_step_next {s : State} (hwf : tablesWf s.fs s.pt = true) : ∃ t, step s = .next t := by
  cases hq : s.requests with
  | nil => exact ⟨_, step_of_requests_nil hwf hq⟩
  | cons q rest => exact ⟨_, step_of_requests_cons hwf hq⟩

/-- Settles O48: a step keeps the tables, so they stay well-formed along a run. -/
theorem everyRunIsSafe : Obligations.EveryRunIsSafe := by
  intro s qs hwf
  refine safeRun_of_step (P := fun u => tablesWf u.fs u.pt = true) (fun u hu => ?_) hwf
  obtain ⟨t, ht⟩ := exists_step_next hu
  obtain ⟨hfs, hpt⟩ := step_keeps_tables ht
  exact ⟨t, ht, by rw [hfs, hpt, hu]⟩

end Sys2Proof.Machine

/-! ## A primary entry in the shadow of a fixed-shamt entry -/

namespace Sys2Proof.Machine

/-- The reference PT with an R entry added at MUL's opcode, as vector V41 has it. -/
def shadowedPT : List PTEntry := ⟨11, 0b10011011000#11, "MULR", .r⟩ :: referencePT

theorem tablesWf_shadowedPT : tablesWf referenceFS shadowedPT = true := by decide

/-- Settles O52: MUL's word matches its entry of FS, which the cascade takes before any of PT; the other word matches no
entry of FS, so the cascade takes the added entry (O27). -/
theorem fixedShamtEntryShadowsAPrimaryEntry : Obligations.FixedShamtEntryShadowsAPrimaryEntry := by
  show tablesWf referenceFS shadowedPT = true ∧ decodeText referenceFS shadowedPT 0x9B037C41#32 = "MUL X1, X2, X3" ∧
    decodeText referenceFS shadowedPT 0x9B030441#32 = "MULR X1, X2, X3, LSL #1"
  refine ⟨tablesWf_shadowedPT, ?_, ?_⟩
  · obtain ⟨hmul, -⟩ := cascadeTakesTheLowestStep referenceFS shadowedPT tablesWf_shadowedPT 0x9B037C41#32
    exact (hmul _ List.mem_cons_self (by decide)).trans (by decide)
  · obtain ⟨-, hother⟩ := cascadeTakesTheLowestStep referenceFS shadowedPT tablesWf_shadowedPT 0x9B030441#32
    obtain ⟨h11, -⟩ := hother (by decide)
    obtain ⟨-, hline⟩ | ⟨hd, -⟩ := h11 _ ⟨List.mem_cons_self, rfl, by decide⟩
    · exact hline.trans (by decide)
    · cases hd

end Sys2Proof.Machine

/-! ## The values of the operands: fields, sign extension, displacements and the wide immediate -/

namespace Sys2Proof.Machine

/-- A slice as a number: the word shifted right and masked (R73). -/
theorem toNat_slice (w : Word) (lo len : Nat) :
    (w.extractLsb' lo len).toNat = (w.toNat >>> lo) &&& (2 ^ len - 1) := by
  rw [BitVec.extractLsb'_toNat, Nat.and_two_pow_sub_one_eq_mod]

/-- Settles O31: each extractor cuts the slice that starts 32 - j bits up and is j - i bits wide. -/
theorem fieldsAreShiftAndMask : Obligations.FieldsAreShiftAndMask := fun w =>
  ⟨toNat_slice w 0 5, toNat_slice w 5 5, toNat_slice w 16 5, toNat_slice w 10 6, toNat_slice w 12 9,
    toNat_slice w 10 12, toNat_slice w 21 2, toNat_slice w 5 16, toNat_slice w 0 26, toNat_slice w 5 19⟩

/-- The sign bit of a field is set exactly when its unsigned value reaches the upper half (R74). -/
theorem getLsbD_signBit {n : Nat} (v : BitVec (n + 1)) : v.getLsbD n = decide (2 ^ n ≤ v.toNat) :=
  BitVec.getLsbD_last v

/-- Sign extension by the field's unsigned value (R74). -/
theorem sext_eq_ite {n : Nat} (v : BitVec (n + 1)) :
    sext v = if 2 ^ n ≤ v.toNat then (v.toNat : Int) - 2 ^ (n + 1) else (v.toNat : Int) := by
  simp only [sext, Nat.add_sub_cancel, getLsbD_signBit, decide_eq_true_eq]

theorem le_sext {n : Nat} (v : BitVec (n + 1)) : -(2 ^ n : Int) ≤ sext v := by
  rw [sext_eq_toInt]
  exact BitVec.le_toInt v

theorem sext_le {n : Nat} (v : BitVec (n + 1)) : sext v ≤ 2 ^ n - 1 := by
  rw [sext_eq_toInt]
  exact BitVec.toInt_le

/-- Settles O32. -/
theorem signExtensionIsTwosComplement : Obligations.SignExtensionIsTwosComplement :=
  fun _ v => ⟨sext_eq_toInt v, sext_eq_ite v, le_sext v, sext_le v⟩

/-- Four times the sign extension is the field shifted left by two, less 2^(n+3) when the sign bit is set (R75). -/
theorem sext_mul_four {n : Nat} (v : BitVec (n + 1)) :
    sext v * 4 = ((v.toNat <<< 2 : Nat) : Int) - (if v.getLsbD n then 2 ^ (n + 3) else 0) := by
  have hshift : ((v.toNat <<< 2 : Nat) : Int) = v.toNat * 4 := by rw [Nat.shiftLeft_eq]; rfl
  have hpow : (2 : Int) ^ (n + 3) = 2 ^ (n + 1) * 4 := by rw [pow_add _ (n + 1) 2]; rfl
  rw [hshift, hpow, sext, Nat.add_sub_cancel]
  split
  · exact Int.sub_mul ..
  · exact (Int.sub_zero _).symm

/-- Settles O33: the range of sign extension at 26 and at 19 bits, times 4. -/
theorem displacementsAreSignedMultiplesOfFour : Obligations.DisplacementsAreSignedMultiplesOfFour := by
  refine ⟨fun raw => ⟨rfl, sext_mul_four raw, ?_⟩, fun raw => ⟨rfl, sext_mul_four raw, ?_⟩⟩
  · have hlo : -(2 ^ 25 : Int) ≤ sext raw := le_sext raw
    have hhi : sext raw ≤ 2 ^ 25 - 1 := sext_le raw
    unfold dispB
    omega
  · have hlo : -(2 ^ 18 : Int) ≤ sext raw := le_sext raw
    have hhi : sext raw ≤ 2 ^ 18 - 1 := sext_le raw
    unfold dispCB
    omega

/-- The largest IM value has every bit of the immediate and of hw set (R76). -/
theorem imValue_le (hw : BitVec 2) (imm : BitVec 16) : imValue hw imm ≤ imValue 3 65535 :=
  Nat.mul_le_mul (Nat.le_of_lt_succ imm.isLt)
    (Nat.pow_le_pow_right (by decide) (Nat.mul_le_mul_left 16 (Nat.le_of_lt_succ hw.isLt)))

/-- Settles O34. -/
theorem moveWideValueIsExact : Obligations.MoveWideValueIsExact := by
  refine ⟨fun hw imm => ⟨(Nat.shiftLeft_eq ..).symm, imValue_le hw imm, fun hw' imm' hne heq => ?_⟩, ?_⟩
  · obtain hsame | ⟨hzero, -⟩ := imValue_eq_iff.mp heq
    · exact hsame
    · exact absurd hzero hne
  · decide

end Sys2Proof.Machine

/-! ## The texts of the operands: decimal, registers and hexadecimal -/

namespace Sys2Proof.Machine

theorem dec_natCast (n : Nat) : dec n = decNat n := by
  rw [dec, if_neg (by omega), Int.toNat_natCast]

theorem dec_of_neg {n : Int} (h : n < 0) : dec n = "-" ++ dec (-n) := by
  obtain ⟨m, hm⟩ := Int.eq_ofNat_of_zero_le (show 0 ≤ -n by omega)
  rw [dec, if_pos h, hm, dec_natCast, Int.toNat_natCast]

theorem toList_decNat (n : Nat) : (decNat n).toList = Nat.toDigits 10 n := Nat.toList_repr

/-- A decimal digit is one of the ten characters 0 to 9 (R71). -/
theorem mem_digits_of_isDigit {c : Char} (h : c.isDigit = true) :
    c ∈ ['0', '1', '2', '3', '4', '5', '6', '7', '8', '9'] := by
  have hall : ∀ k ∈ List.range' 48 10,
      Char.ofNat k ∈ ['0', '1', '2', '3', '4', '5', '6', '7', '8', '9'] := by decide
  obtain ⟨hlo, hhi⟩ := Char.isDigit_iff_toNat.mp h
  rw [← Char.ofNat_toNat c]
  exact hall _ (List.mem_range'_1.mpr ⟨hlo, Nat.lt_succ_of_le hhi⟩)

/-- A positive number has no leading zero (R71). -/
theorem head?_toDigits_ne_zero {n : Nat} (h : 0 < n) : (Nat.toDigits 10 n).head? ≠ some '0' := by
  induction n using Nat.strong_induction_on with
  | _ n ih =>
    by_cases hn : n < 10
    · simp [Nat.toDigits_of_lt_base hn, Nat.ne_of_gt h]
    · rw [Nat.toDigits_of_base_le (by decide) (by omega), List.head?_append_of_ne_nil _ Nat.toDigits_ne_nil]
      exact ih _ (by omega) (by omega)

/-- Reading a number's digits in base 10 gives the number (R71). -/
theorem foldl_toDigits (n : Nat) :
    (Nat.toDigits 10 n).foldl (fun acc c => acc * 10 + (c.toNat - '0'.toNat)) 0 = n := by
  simp only [Nat.mul_comm _ 10]
  exact Nat.ofDigitChars_eq_foldl.symm.trans Nat.ofDigitChars_ten_toDigits

/-- Settles O35. -/
theorem decimalTextReadsBack : Obligations.DecimalTextReadsBack := by
  refine ⟨rfl, fun n hn => ?_, fun n hn => dec_of_neg hn⟩
  rw [dec_natCast]
  refine ⟨fun c hc => mem_digits_of_isDigit (isDigit_of_mem_decNat hc), ?_, ?_⟩
  · rw [toList_decNat]; exact head?_toDigits_ne_zero hn
  · rw [toList_decNat]; exact foldl_toDigits n

/-- Settles O37. -/
theorem registerTextNamesTheRegister : Obligations.RegisterTextNamesTheRegister :=
  ⟨fun n => by rw [dec_natCast, reg], fun _ _ => reg_inj, by decide, by decide, by decide, by decide⟩

/-- The eight hexadecimal digits of a word as 4-bit values, most significant first (R33, R72). -/
def nibbles (w : Word) : List (BitVec 4) := [28, 24, 20, 16, 12, 8, 4, 0].map fun lo => w.extractLsb' lo 4

theorem toList_hex8 (w : Word) : (hex8 w).toList = (nibbles w).map hexDigit := String.toList_ofList

/-- The 4-bit values of a word, read in base 16, give the word (R72). -/
theorem foldl_nibbles (w : Word) : (nibbles w).foldl (fun acc d => acc * 16 + d.toNat) 0 = w.toNat := by
  simp only [nibbles, List.map_cons, List.map_nil, List.foldl_cons, List.foldl_nil, BitVec.extractLsb'_toNat,
    Nat.shiftRight_eq_div_pow]
  omega

theorem hexDigit_mem : ∀ d : BitVec 4, hexDigit d ∈
    ['0', '1', '2', '3', '4', '5', '6', '7', '8', '9', 'A', 'B', 'C', 'D', 'E', 'F'] := by decide

/-- Settles O36: each character is the digit of a 4-bit value and reads back to it. -/
theorem hexTextIsEightUpperCaseDigits : Obligations.HexTextIsEightUpperCaseDigits := by
  have hvalue : ∀ d : BitVec 4, (if (hexDigit d).toNat ≤ '9'.toNat then (hexDigit d).toNat - '0'.toNat
      else (hexDigit d).toNat - 'A'.toNat + 10) = d.toNat := by decide
  intro w
  rw [toList_hex8]
  refine ⟨rfl, fun c hc => ?_, ?_⟩
  · obtain ⟨d, -, rfl⟩ := List.mem_map.mp hc
    exact hexDigit_mem d
  · simp only [List.foldl_map, hvalue]
    exact foldl_nibbles w

end Sys2Proof.Machine

/-! ## The hex text of a word and the Normalizer -/

namespace Sys2Proof.Machine

/-- The Normalizer's value of the digit of a 4-bit value is that value (R72, R182). -/
theorem hexDigitValue_hexDigit : ∀ d : BitVec 4, hexDigitValue (hexDigit d) = some d.toNat := by decide

/-- Reading the digits of 4-bit values gives their value in base 16 (R182). -/
theorem readDigits_map_hexDigit (ds : List (BitVec 4)) (acc : Nat) :
    readDigits .hex acc (ds.map hexDigit) = some (ds.foldl (fun acc d => acc * 16 + d.toNat) acc) := by
  induction ds generalizing acc with
  | nil => rfl
  | cons d ds ih =>
    rw [List.map_cons, readDigits, radixDigit, hexDigitValue_hexDigit]
    exact ih _

/-- Without an x after the first character nothing is stripped (R181). -/
theorem stripHexPrefix_of_ne {c d : Char} (hx : d ≠ 'x') (hX : d ≠ 'X') (rest : List Char) :
    stripHexPrefix (c :: d :: rest) = c :: d :: rest := by
  unfold stripHexPrefix
  split <;> simp_all

/-- A token whose remainder is a word's eight hexadecimal digits normalizes to the word (R181, R182). -/
theorem normalizeHex_of_strip {token : String} {w : Word}
    (h : stripHexPrefix token.toList = (nibbles w).map hexDigit) : normalizeHex token = .ok w := by
  have hpad : padHex ((nibbles w).map hexDigit) = (nibbles w).map hexDigit := rfl
  have hlen : ((nibbles w).map hexDigit).length = 8 := rfl
  simp only [normalizeHex, h, hpad, if_pos hlen, readDigits_map_hexDigit, foldl_nibbles, BitVec.ofNat_toNat,
    BitVec.setWidth_eq]

/-- Settles O55: the hex text has no x of its own, so only the 0x or 0X put before it is stripped. -/
theorem hexTextNormalizesToItsWord : Obligations.HexTextNormalizesToItsWord := by
  have hnoX : ∀ d : BitVec 4, hexDigit d ≠ 'x' ∧ hexDigit d ≠ 'X' := by decide
  intro w
  refine ⟨normalizeHex_of_strip ?_, normalizeHex_of_strip ?_, normalizeHex_of_strip ?_⟩
  · obtain ⟨hx, hX⟩ := hnoX (w.extractLsb' 24 4)
    rw [toList_hex8]
    exact stripHexPrefix_of_ne hx hX _
  · rw [String.toList_append, toList_hex8]; rfl
  · rw [String.toList_append, toList_hex8]; rfl

end Sys2Proof.Machine

/-! ## The lines of the fixed-shamt words, and their opcodes with another shamt -/

namespace Sys2Proof

/-- A fixed-shamt entry as the rows of R81 to R93 list it: its match value and its mnemonic. -/
def FSEntry.row (e : FSEntry) : Word × Mnemonic := (e.pattern, e.mnemonic)

/-- The key of an entry of at most 11 bits that a word matches is the top of the word's 11-bit opcode (R48). -/
theorem opcode_div_of_hits {e : PTEntry} (h : e.len ≤ 11) {w : Word} (hw : e.hits w = true) :
    w.toNat / 2 ^ 21 / 2 ^ (11 - e.len) = e.key.toNat := by
  have hkey := (e.hits_iff_toNat (by omega) w).mp hw
  rwa [Nat.div_div_eq_div_mul, ← pow_add, show 21 + (11 - e.len) = 32 - e.len by omega]

/-- Every primary key of the reference population has at most 11 bits and is not the top of a fixed-shamt opcode (R26,
R80). -/
theorem referencePT_key_ne_fixedShamt_opcode :
    ∀ op ∈ [0b10011011000, 0b10011010110, 0b00011110001, 0b00011110011], ∀ e ∈ referencePT,
      e.len ≤ 11 ∧ op / 2 ^ (11 - e.len) ≠ e.key.toNat := by decide

end Sys2Proof

namespace Sys2Proof.Machine

/-- A block of the default tables renders a word as the template of the word's record does (R54, R79). -/
theorem renders_of_classify {w : Word} {r : Record} (h : classify referenceFS referencePT w = r) :
    Renders w (render r) :=
  h ▸ renders_decodeText w

/-- The decimal text of a slice (R71, R73). -/
theorem repr_slice (w : Word) (lo len : Nat) : (w.extractLsb' lo len).toNat.repr = fieldText w lo len := by
  rw [fieldText, BitVec.extractLsb'_toNat, Nat.shiftRight_eq_div_pow]

/-- A word that matches a reference fixed-shamt entry renders the entry's three-register line (R80). -/
theorem renders_of_fsHits {e : FSEntry} (he : e ∈ referenceFS) {w : Word} (hw : e.hits w = true) :
    Renders w (e.mnemonic ++ " X" ++ fieldText w 0 5 ++ ", X" ++ fieldText w 5 5 ++ ", X" ++ fieldText w 16 5) := by
  have hline := renders_of_classify (classify_reference_of_fsHits he hw)
  rwa [FSEntry.record, render, renderFixedShamt_eq, rdField, rnField, rmField, repr_slice, repr_slice, repr_slice]
    at hline

/-- Where a row is an entry of the reference FS, every word with the row's fixed bits renders its line (R48, R80). -/
theorem renders_of_fsRow {row : Word × Mnemonic} (hrow : row ∈ referenceFS.map FSEntry.row) {w : Word}
    (hw : w &&& 0xFFE0FC00#32 = row.1) :
    Renders w (row.2 ++ " X" ++ fieldText w 0 5 ++ ", X" ++ fieldText w 5 5 ++ ", X" ++ fieldText w 16 5) := by
  obtain ⟨e, he, rfl⟩ := List.mem_map.mp hrow
  exact renders_of_fsHits he (beq_iff_eq.mpr hw)

/-- Settles O15: each row is an entry of the reference FS. -/
theorem integerMultiplyDivideWordsRender : Obligations.IntegerMultiplyDivideWordsRender := by
  have hrows : [(0x9B007C00#32, "MUL"), (0x9AC00800#32, "SDIV"), (0x9AC00C00#32, "UDIV")] ⊆
      referenceFS.map FSEntry.row := by decide
  exact fun _ hrow _ hw => renders_of_fsRow (hrows hrow) hw

/-- Settles O16: each row is an entry of the reference FS; the compares render by the same template. -/
theorem floatingPointWordsRender : Obligations.FloatingPointWordsRender := by
  have hrows : [(0x1E202800#32, "FADDS"), (0x1E602800#32, "FADDD"), (0x1E202000#32, "FCMPS"),
      (0x1E602000#32, "FCMPD"), (0x1E201800#32, "FDIVS"), (0x1E601800#32, "FDIVD"),
      (0x1E200800#32, "FMULS"), (0x1E600800#32, "FMULD"), (0x1E203800#32, "FSUBS"),
      (0x1E603800#32, "FSUBD")] ⊆ referenceFS.map FSEntry.row := by decide
  exact fun _ hrow _ hw => renders_of_fsRow (hrows hrow) hw

/-- Settles O26: the key is of no entry of FS by hypothesis, and no entry of PT shares a fixed-shamt opcode, so the word
matches no entry (O25). -/
theorem fixedShamtOpcodeWithOtherShamtIsUnknown : Obligations.FixedShamtOpcodeWithOtherShamtIsUnknown := by
  intro w hop hkey
  obtain ⟨hfallback, -⟩ := unknownWordsRenderTheFallback
  refine hfallback w (Bool.eq_false_iff.mpr fun hknown => ?_)
  obtain ⟨e, he, hw⟩ | ⟨e, he, hw⟩ := (isKnownWord_iff _ _ w).mp hknown
  · exact hkey e he ((e.hits_iff_toNat w).mp hw)
  · obtain ⟨hlen, hne⟩ := referencePT_key_ne_fixedShamt_opcode _ hop e he
    exact hne (opcode_div_of_hits hlen hw)

/-- Settles O3: each word is the encoding of its instruction, which decodes to itself (O1). -/
theorem writtenOutWordsDecode : Obligations.WrittenOutWordsDecode := by
  have hdecode {w : Word} {i : Instr} (hwf : i.wellFormed = true) (hword : encode i = w) : decode w = i :=
    hword ▸ decodeOfEncodeIsTheInstruction i hwf
  exact ⟨hdecode rfl (by decide), hdecode rfl (by decide), hdecode rfl (by decide), hdecode rfl (by decide),
    hdecode rfl (by decide), hdecode rfl (by decide), hdecode rfl (by decide), hdecode (by decide) rfl⟩

end Sys2Proof.Machine

/-! ## The lines of the R-format words -/

namespace Sys2Proof

/-- A primary entry as the rules of its format list it: its match value and its mnemonic. -/
def PTEntry.row (e : PTEntry) : Word × Mnemonic := (e.pattern, e.mnemonic)

/-- The R entries are entries of the reference PT, all with the mask that R101 to R113 give (R48). -/
theorem referenceR_format_mask :
    ∀ e ∈ referenceR, e ∈ referencePT ∧ e.format = .r ∧ e.mask = 0xFFE00000#32 := by decide

end Sys2Proof

namespace Sys2Proof.Machine

/-- A word that matches a reference primary entry renders by the template of the entry's format (R54, R79). -/
theorem renders_of_ptHits {e : PTEntry} (he : e ∈ referencePT) {w : Word} (hw : e.hits w = true) :
    Renders w (render (e.record w)) :=
  renders_of_classify (classify_reference_of_ptHits he hw)

/-- The line of an R entry for a word, its fields read by division (R100). -/
theorem render_record_of_r {e : PTEntry} (hf : e.format = .r) (w : Word) :
    render (e.record w) =
      e.mnemonic ++ " X" ++ fieldText w 0 5 ++ ", X" ++ fieldText w 5 5 ++ ", X" ++ fieldText w 16 5 ++
        (if w.toNat / 2 ^ 10 % 2 ^ 6 = 0 then "" else ", LSL #" ++ fieldText w 10 6) := by
  have hrecord : e.record w = .r e.mnemonic (rdField w) (rnField w) (rmField w) (shamtField w) := by
    rw [PTEntry.record, hf]
  have hshamt : (shamtField w).toNat = w.toNat / 2 ^ 10 % 2 ^ 6 := by
    rw [shamtField, BitVec.extractLsb'_toNat, Nat.shiftRight_eq_div_pow]
  rw [hrecord, render, renderR_eq, hshamt, rdField, rnField, rmField, repr_slice, repr_slice, repr_slice]
  rfl

/-- Where a row is an R entry of the reference PT, every word with the row's fixed bits renders its line (R48, R100). -/
theorem renders_of_rRow {row : Word × Mnemonic} (hrow : row ∈ referenceR.map PTEntry.row) {w : Word}
    (hw : w &&& 0xFFE00000#32 = row.1) :
    Renders w (row.2 ++ " X" ++ fieldText w 0 5 ++ ", X" ++ fieldText w 5 5 ++ ", X" ++ fieldText w 16 5 ++
      (if w.toNat / 2 ^ 10 % 2 ^ 6 = 0 then "" else ", LSL #" ++ fieldText w 10 6)) := by
  obtain ⟨e, he, rfl⟩ := List.mem_map.mp hrow
  obtain ⟨hmem, hf, hmask⟩ := referenceR_format_mask e he
  have hhits : e.hits w = true := by
    rw [PTEntry.hits, hmask]
    exact beq_iff_eq.mpr hw
  have hline := renders_of_ptHits hmem hhits
  rwa [render_record_of_r hf] at hline

/-- Settles O17: each row is an R entry of the reference PT. -/
theorem arithmeticLogicWordsRender : Obligations.ArithmeticLogicWordsRender := by
  have hrows : [(0x8B000000#32, "ADD"), (0xAB000000#32, "ADDS"), (0x8A000000#32, "AND"), (0xEA000000#32, "ANDS"),
      (0xCA000000#32, "EOR"), (0xAA000000#32, "ORR"), (0xCB000000#32, "SUB"),
      (0xEB000000#32, "SUBS")] ⊆ referenceR.map PTEntry.row := by decide
  exact fun _ hrow _ hw => renders_of_rRow (hrows hrow) hw

/-- Settles O18: each row is an R entry of the reference PT, and no entry has a template of its own. -/
theorem shiftBranchHighMultiplyWordsRender : Obligations.ShiftBranchHighMultiplyWordsRender := by
  have hrows : [(0xD6000000#32, "BR"), (0xD3600000#32, "LSL"), (0xD3400000#32, "LSR"), (0x9B400000#32, "SMULH"),
      (0x9BC00000#32, "UMULH")] ⊆ referenceR.map PTEntry.row := by decide
  exact fun _ hrow _ hw => renders_of_rRow (hrows hrow) hw

end Sys2Proof.Machine

/-! ## The lines of the D-format words -/

namespace Sys2Proof

/-- The D entries are entries of the reference PT, all with the mask that R121 to R134 give (R48). -/
theorem referenceD_format_mask :
    ∀ e ∈ referenceD, e ∈ referencePT ∧ e.format = .d ∧ e.mask = 0xFFE00000#32 := by decide

end Sys2Proof

namespace Sys2Proof.Machine

/-- Where a row is one of some reference entries of one format and mask, every word with the row's fixed bits renders by
the format's template with the row's mnemonic (R48, R54). -/
theorem renders_record_of_ptRow {l : List PTEntry} {f : Format} {mask : Word}
    (hl : ∀ e ∈ l, e ∈ referencePT ∧ e.format = f ∧ e.mask = mask) {row : Word × Mnemonic}
    (hrow : row ∈ l.map PTEntry.row) {w : Word} (hw : w &&& mask = row.1) :
    ∃ e : PTEntry, e.format = f ∧ e.mnemonic = row.2 ∧ Renders w (render (e.record w)) := by
  obtain ⟨e, he, rfl⟩ := List.mem_map.mp hrow
  obtain ⟨hmem, hf, rfl⟩ := hl e he
  exact ⟨e, hf, rfl, renders_of_ptHits hmem (beq_iff_eq.mpr hw)⟩

/-- The line of a D entry for a word: the offset is bits 20..12 as a number, and bits 11..10 do not show (R43, R120). -/
theorem render_record_of_d {e : PTEntry} (hf : e.format = .d) (w : Word) :
    render (e.record w) =
      e.mnemonic ++ " X" ++ fieldText w 0 5 ++ ", [X" ++ fieldText w 5 5 ++ ", #" ++ fieldText w 12 9 ++ "]" := by
  have hrecord : e.record w = .d e.mnemonic (rdField w) (rnField w) (imm9Field w) := by
    rw [PTEntry.record, hf]
  rw [hrecord, render, renderD_eq, rdField, rnField, imm9Field, repr_slice, repr_slice, repr_slice]

/-- Where a row is a D entry of the reference PT, every word with the row's fixed bits renders its line (R48, R120). -/
theorem renders_of_dRow {row : Word × Mnemonic} (hrow : row ∈ referenceD.map PTEntry.row) {w : Word}
    (hw : w &&& 0xFFE00000#32 = row.1) :
    Renders w (row.2 ++ " X" ++ fieldText w 0 5 ++ ", [X" ++ fieldText w 5 5 ++ ", #" ++ fieldText w 12 9 ++ "]") := by
  obtain ⟨e, hf, hmn, hline⟩ := renders_record_of_ptRow referenceD_format_mask hrow hw
  rwa [render_record_of_d hf, hmn] at hline

/-- Settles O19: each row is a D entry of the reference PT. -/
theorem loadWordsRender : Obligations.LoadWordsRender := by
  have hrows : [(0xF8400000#32, "LDUR"), (0x38400000#32, "LDURB"), (0x78400000#32, "LDURH"),
      (0xB8800000#32, "LDURSW"), (0xC8400000#32, "LDXR"), (0xBC400000#32, "LDURS"),
      (0xFC400000#32, "LDURD")] ⊆ referenceD.map PTEntry.row := by decide
  exact fun _ hrow _ hw => renders_of_dRow (hrows hrow) hw

/-- Settles O20: each row is a D entry of the reference PT, and the stores render by the template of the loads. -/
theorem storeWordsRender : Obligations.StoreWordsRender := by
  have hrows : [(0xF8000000#32, "STUR"), (0x38000000#32, "STURB"), (0x78000000#32, "STURH"),
      (0xB8000000#32, "STURW"), (0xC8000000#32, "STXR"), (0xBC000000#32, "STURS"),
      (0xFC000000#32, "STURD")] ⊆ referenceD.map PTEntry.row := by decide
  exact fun _ hrow _ hw => renders_of_dRow (hrows hrow) hw

end Sys2Proof.Machine

/-! ## The lines of the I-format words -/

namespace Sys2Proof

/-- The I entries are entries of the reference PT, all with the mask that R141 to R148 give (R48). -/
theorem referenceI_format_mask :
    ∀ e ∈ referenceI, e ∈ referencePT ∧ e.format = .i ∧ e.mask = 0xFFC00000#32 := by decide

end Sys2Proof

namespace Sys2Proof.Machine

/-- The line of an I entry for a word: the immediate is bits 21..10 as a number, never negative (R44, R140). -/
theorem render_record_of_i {e : PTEntry} (hf : e.format = .i) (w : Word) :
    render (e.record w) =
      e.mnemonic ++ " X" ++ fieldText w 0 5 ++ ", X" ++ fieldText w 5 5 ++ ", #" ++ fieldText w 10 12 := by
  have hrecord : e.record w = .i e.mnemonic (rdField w) (rnField w) (imm12Field w) := by
    rw [PTEntry.record, hf]
  rw [hrecord, render, renderI_eq, rdField, rnField, imm12Field, repr_slice, repr_slice, repr_slice]

/-- Settles O21: each row is an I entry of the reference PT, and the logical immediates render by the template of the
others (R140). -/
theorem immediateWordsRender : Obligations.ImmediateWordsRender := by
  have hrows : [(0x91000000#32, "ADDI"), (0xB1000000#32, "ADDIS"), (0x92000000#32, "ANDI"),
      (0xF2000000#32, "ANDIS"), (0xD2000000#32, "EORI"), (0xB2000000#32, "ORRI"),
      (0xD1000000#32, "SUBI"), (0xF1000000#32, "SUBIS")] ⊆ referenceI.map PTEntry.row := by decide
  intro row hrow w hw
  obtain ⟨e, hf, hmn, hline⟩ := renders_record_of_ptRow referenceI_format_mask (hrows hrow) hw
  rwa [render_record_of_i hf, hmn] at hline

end Sys2Proof.Machine

/-! ## The lines of the IM-format words -/

namespace Sys2Proof

/-- The IM entries are entries of the reference PT, both with the mask that R151 and R152 give (R48). -/
theorem referenceIM_format_mask :
    ∀ e ∈ referenceIM, e ∈ referencePT ∧ e.format = .im ∧ e.mask = 0xFF800000#32 := by decide

end Sys2Proof

namespace Sys2Proof.Machine

/-- A slice as a number, by division (R73). -/
theorem toNat_slice_eq_div (w : Word) (lo len : Nat) :
    (w.extractLsb' lo len).toNat = w.toNat / 2 ^ lo % 2 ^ len := by
  rw [BitVec.extractLsb'_toNat, Nat.shiftRight_eq_div_pow]

/-- The value of a word's wide immediate: bits 20..5, moved up by as many times 16 bits as bits 22..21 say (R45, R76). -/
theorem imValue_fields (w : Word) :
    imValue (hwField w) (imm16Field w) = w.toNat / 2 ^ 5 % 2 ^ 16 * 2 ^ (16 * (w.toNat / 2 ^ 21 % 2 ^ 2)) := by
  rw [imValue, imm16Field, hwField, toNat_slice_eq_div, toNat_slice_eq_div]

/-- The line of an IM entry for a word: hw does not show by itself, it is folded into the value (R45, R150). -/
theorem render_record_of_im {e : PTEntry} (hf : e.format = .im) (w : Word) :
    render (e.record w) = e.mnemonic ++ " X" ++ fieldText w 0 5 ++ ", #" ++
      (w.toNat / 2 ^ 5 % 2 ^ 16 * 2 ^ (16 * (w.toNat / 2 ^ 21 % 2 ^ 2))).repr := by
  have hrecord : e.record w = .im e.mnemonic (rdField w) (hwField w) (imm16Field w) := by
    rw [PTEntry.record, hf]
  rw [hrecord, render, renderIM_eq, ← imValue, imValue_fields, rdField, repr_slice]

/-- Settles O22: both rows are IM entries of the reference PT, and MOVK renders by the template of MOVZ (R150). -/
theorem moveWideWordsRender : Obligations.MoveWideWordsRender := by
  have hrows : [(0xD2800000#32, "MOVZ"), (0xF2800000#32, "MOVK")] ⊆ referenceIM.map PTEntry.row := by decide
  intro row hrow w hw
  obtain ⟨e, hf, hmn, hline⟩ := renders_record_of_ptRow referenceIM_format_mask (hrows hrow) hw
  rwa [render_record_of_im hf, hmn] at hline

end Sys2Proof.Machine

/-! ## The lines of the B-format words -/

namespace Sys2Proof

/-- The B entries are entries of the reference PT, both with the mask that R161 and R162 give (R48). -/
theorem referenceB_format_mask :
    ∀ e ∈ referenceB, e ∈ referencePT ∧ e.format = .b ∧ e.mask = 0xFC000000#32 := by decide

end Sys2Proof

namespace Sys2Proof.Machine

/-- The text of a displacement by the field's unsigned value: a field in the upper half shows a minus sign and four
times its distance to the top (R71, R75). -/
theorem dec_sext_mul_four {n : Nat} (v : BitVec (n + 1)) :
    dec (sext v * 4) =
      if v.toNat < 2 ^ n then (v.toNat * 4).repr else "-" ++ ((2 ^ (n + 1) - v.toNat) * 4).repr := by
  rw [sext_eq_ite]
  by_cases hv : v.toNat < 2 ^ n
  · rw [if_neg (Nat.not_le.mpr hv), if_pos hv]
    exact dec_natCast (v.toNat * 4)
  · have hlt : v.toNat < 2 ^ (n + 1) := v.isLt
    have hvalue : ((v.toNat : Int) - 2 ^ (n + 1)) * 4 = -((2 ^ (n + 1) - v.toNat) * 4 : Nat) := by
      push_cast [hlt.le]
      ring
    rw [if_pos (Nat.not_lt.mp hv), if_neg hv, hvalue, dec_of_neg (by omega), neg_neg, dec_natCast]
    rfl

/-- The line of a B entry for a word: bits 25..0 as a signed byte displacement, not a target address (R46, R160). -/
theorem render_record_of_b {e : PTEntry} (hf : e.format = .b) (w : Word) :
    render (e.record w) = e.mnemonic ++ " #" ++
      (if w.toNat % 2 ^ 26 < 2 ^ 25 then (w.toNat % 2 ^ 26 * 4).repr
        else "-" ++ ((2 ^ 26 - w.toNat % 2 ^ 26) * 4).repr) := by
  have hrecord : e.record w = .b e.mnemonic (disp26Field w) := by
    rw [PTEntry.record, hf]
  have hraw : (disp26Field w).toNat = w.toNat % 2 ^ 26 := by
    rw [disp26Field, toNat_slice_eq_div, Nat.pow_zero, Nat.div_one]
  rw [hrecord, render, renderB, dispB, dec_sext_mul_four, hraw]

/-- Settles O23: both rows are B entries of the reference PT, and BL renders by the template of B (R160). -/
theorem branchWordsRender : Obligations.BranchWordsRender := by
  have hrows : [(0x14000000#32, "B"), (0x94000000#32, "BL")] ⊆ referenceB.map PTEntry.row := by decide
  intro row hrow w hw
  obtain ⟨e, hf, hmn, hline⟩ := renders_record_of_ptRow referenceB_format_mask (hrows hrow) hw
  rwa [render_record_of_b hf, hmn] at hline

end Sys2Proof.Machine

/-! ## The lines of the CB-format words -/

namespace Sys2Proof

/-- The CB entries are entries of the reference PT, all with the mask that R171 to R173 give (R48). -/
theorem referenceCB_format_mask :
    ∀ e ∈ referenceCB, e ∈ referencePT ∧ e.format = .cb ∧ e.mask = 0xFF000000#32 := by decide

end Sys2Proof

namespace Sys2Proof.Machine

/-- The line of a CB entry for a word: bits 4..0 as a register, for B.COND's condition too, and bits 23..5 as a signed
byte displacement (R47, R170). -/
theorem render_record_of_cb {e : PTEntry} (hf : e.format = .cb) (w : Word) :
    render (e.record w) = e.mnemonic ++ " X" ++ fieldText w 0 5 ++ ", #" ++
      (if w.toNat / 2 ^ 5 % 2 ^ 19 < 2 ^ 18 then (w.toNat / 2 ^ 5 % 2 ^ 19 * 4).repr
        else "-" ++ ((2 ^ 19 - w.toNat / 2 ^ 5 % 2 ^ 19) * 4).repr) := by
  have hrecord : e.record w = .cb e.mnemonic (rdField w) (disp19Field w) := by
    rw [PTEntry.record, hf]
  have hraw : (disp19Field w).toNat = w.toNat / 2 ^ 5 % 2 ^ 19 := toNat_slice_eq_div w 5 19
  rw [hrecord, render, renderCB, append_reg, dispCB, dec_sext_mul_four, hraw, rdField, repr_slice]
  rfl

/-- Settles O24: each row is a CB entry of the reference PT, and B.COND has no template of its own (R170). -/
theorem conditionalBranchWordsRender : Obligations.ConditionalBranchWordsRender := by
  have hrows : [(0x54000000#32, "B.COND"), (0xB4000000#32, "CBZ"), (0xB5000000#32, "CBNZ")] ⊆
      referenceCB.map PTEntry.row := by decide
  intro row hrow w hw
  obtain ⟨e, hf, hmn, hline⟩ := renders_record_of_ptRow referenceCB_format_mask (hrows hrow) hw
  rwa [render_record_of_cb hf, hmn] at hline

end Sys2Proof.Machine

/-! ## The tokens the Normalizer accepts -/

namespace Sys2Proof.Machine

/-- The hex digits of R182, in either case. -/
abbrev hexChars : List Char :=
  ['0', '1', '2', '3', '4', '5', '6', '7', '8', '9', 'a', 'b', 'c', 'd', 'e', 'f', 'A', 'B', 'C', 'D', 'E', 'F']

/-- The value of a hex digit by its range: 0 to 9, then A to F, then a to f (R182). -/
abbrev hexCharValue (c : Char) : Nat :=
  if c.toNat ≤ '9'.toNat then c.toNat - '0'.toNat
  else if c.toNat ≤ 'F'.toNat then c.toNat - 'A'.toNat + 10 else c.toNat - 'a'.toNat + 10

/-- The value of a binary digit (R183). -/
abbrev binaryCharValue (c : Char) : Nat := if c = '1' then 1 else 0

theorem hexDigitValue_of_mem {c : Char} (h : c ∈ hexChars) : hexDigitValue c = some (hexCharValue c) := by
  have hall : hexChars.all (fun c => hexDigitValue c = some (hexCharValue c)) = true := by decide
  exact of_decide_eq_true (List.all_eq_true.mp hall c h)

theorem hexCharValue_lt_of_mem {c : Char} (h : c ∈ hexChars) : hexCharValue c < 16 := by
  have hall : hexChars.all (fun c => hexCharValue c < 16) = true := by decide
  exact of_decide_eq_true (List.all_eq_true.mp hall c h)

/-- A character whose code lies in a range belongs to every list that has all characters of that range. -/
theorem mem_of_toNat_range {l : List Char} {a n : Nat} (hall : ∀ k ∈ List.range' a n, Char.ofNat k ∈ l) {c : Char}
    (hlo : a ≤ c.toNat) (hhi : c.toNat < a + n) : c ∈ l := by
  rw [← Char.ofNat_toNat c]
  exact hall _ (List.mem_range'_1.mpr ⟨hlo, hhi⟩)

/-- Only a hex digit has a value (R182, R186): each range that the reader tests holds hex digits only. -/
theorem hexDigitValue_eq_none {c : Char} (h : c ∉ hexChars) : hexDigitValue c = none := by
  have hdigit : ¬ ('0'.toNat ≤ c.toNat ∧ c.toNat ≤ '9'.toNat) := fun ⟨hlo, hhi⟩ =>
    h (mem_of_toNat_range (a := 48) (n := 10) (by decide) hlo (Nat.lt_succ_of_le hhi))
  have hlower : ¬ ('a'.toNat ≤ c.toNat ∧ c.toNat ≤ 'f'.toNat) := fun ⟨hlo, hhi⟩ =>
    h (mem_of_toNat_range (a := 97) (n := 6) (by decide) hlo (Nat.lt_succ_of_le hhi))
  have hupper : ¬ ('A'.toNat ≤ c.toNat ∧ c.toNat ≤ 'F'.toNat) := fun ⟨hlo, hhi⟩ =>
    h (mem_of_toNat_range (a := 65) (n := 6) (by decide) hlo (Nat.lt_succ_of_le hhi))
  rw [hexDigitValue, if_neg hdigit, if_neg hlower, if_neg hupper]

theorem binaryDigitValue_of_mem {c : Char} (h : c = '0' ∨ c = '1') :
    binaryDigitValue c = some (binaryCharValue c) := by
  obtain rfl | rfl := h <;> rfl

theorem binaryDigitValue_eq_none {c : Char} (h : ¬ (c = '0' ∨ c = '1')) : binaryDigitValue c = none := by
  obtain ⟨hzero, hone⟩ := not_or.mp h
  rw [binaryDigitValue, if_neg hzero, if_neg hone]

/-- When every character is a digit of the mode, the reader gives the string's value in the mode's base (R182, R183). -/
theorem readDigits_eq_foldl {radix : Radix} {value : Char → Nat} {cs : List Char}
    (h : ∀ c ∈ cs, radixDigit radix c = some (value c)) (acc : Nat) :
    readDigits radix acc cs = some (cs.foldl (fun acc c => acc * radixBase radix + value c) acc) := by
  induction cs generalizing acc with
  | nil => rfl
  | cons c cs ih =>
    obtain ⟨hc, hcs⟩ := List.forall_mem_cons.mp h
    rw [readDigits, hc]
    exact ih hcs _

/-- One character that is no digit of the mode makes the whole string unreadable (R182, R183, R186). -/
theorem readDigits_eq_none {radix : Radix} {bad : Char} (hbad : radixDigit radix bad = none) {cs : List Char}
    (h : bad ∈ cs) (acc : Nat) : readDigits radix acc cs = none := by
  induction cs generalizing acc with
  | nil => cases h
  | cons c cs ih =>
    rw [readDigits]
    obtain rfl | hcs := List.mem_cons.mp h
    · rw [hbad]
    · split
      · exact ih hcs _
      · rfl

/-- The value of n digits in a base is below the base to the n. -/
theorem foldl_digits_lt {base : Nat} {value : Char → Nat} {cs : List Char} (h : ∀ c ∈ cs, value c < base)
    (acc : Nat) :
    cs.foldl (fun acc c => acc * base + value c) acc < (acc + 1) * base ^ cs.length := by
  induction cs generalizing acc with
  | nil => simp
  | cons c cs ih =>
    obtain ⟨hc, hcs⟩ := List.forall_mem_cons.mp h
    calc (c :: cs).foldl (fun acc c => acc * base + value c) acc
        < (acc * base + value c + 1) * base ^ cs.length := ih hcs _
      _ ≤ (acc + 1) * base * base ^ cs.length := Nat.mul_le_mul_right _ (by rw [Nat.add_one_mul]; omega)
      _ = (acc + 1) * base ^ (c :: cs).length := by rw [List.length_cons, pow_succ', Nat.mul_assoc]

/-- A value that fits a word is the value of the word made of it. -/
theorem toNat_ofNat_of_lt {n : Nat} (h : n < 2 ^ 32) : (BitVec.ofNat 32 n).toNat = n := by
  rw [BitVec.toNat_ofNat, Nat.mod_eq_of_lt h]

/-! ### Hex mode -/

/-- The prefix rule of R181 by the first two characters. -/
theorem stripHexPrefix_eq (cs : List Char) :
    stripHexPrefix cs = if cs.take 2 = ['0', 'x'] ∨ cs.take 2 = ['0', 'X'] then cs.drop 2 else cs := by
  unfold stripHexPrefix
  split
  next => rfl
  next => rfl
  next hx hX =>
    rw [if_neg]
    match cs with
    | [] | [_] => simp
    | c :: d :: rest => simp_all

/-- A string of hex digits has no prefix to strip: x and X are no hex digits (R181, R182). -/
theorem stripHexPrefix_of_hexChars {cs : List Char} (h : ∀ c ∈ cs, c ∈ hexChars) : stripHexPrefix cs = cs := by
  unfold stripHexPrefix
  split
  next rest => exact absurd (h 'x' (by simp)) (by decide)
  next rest => exact absurd (h 'X' (by simp)) (by decide)
  next => rfl

theorem length_padHex_eq_iff {cs : List Char} : (padHex cs).length = 8 ↔ cs.length ≤ 8 := by
  rw [padHex, List.length_append, List.length_replicate]
  omega

/-- The padding does not change what is read (R182). -/
theorem readDigits_padHex (cs : List Char) : readDigits .hex 0 (padHex cs) = readDigits .hex 0 cs := by
  have hzeros (n : Nat) : readDigits .hex 0 (List.replicate n '0' ++ cs) = readDigits .hex 0 cs := by
    induction n with
    | zero => rfl
    | succ n ih => exact ih
  exact hzeros _

/-- A remainder of at most eight hex digits is accepted with its value in base 16 (R182, R185). -/
theorem normalizeHex_of_hexChars {token : String} {cs : List Char} (hstrip : stripHexPrefix token.toList = cs)
    (hlen : cs.length ≤ 8) (hdigits : ∀ c ∈ cs, c ∈ hexChars) :
    normalizeHex token = .ok (BitVec.ofNat 32 (cs.foldl (fun acc c => acc * 16 + hexCharValue c) 0)) := by
  have hread := readDigits_eq_foldl (radix := .hex) (fun c hc => hexDigitValue_of_mem (hdigits c hc)) 0
  simp only [normalizeHex, hstrip, length_padHex_eq_iff, if_pos hlen, readDigits_padHex, hread, radixBase]

/-- A remainder of at most eight hex digits has a value below 2^32. -/
theorem hexValue_lt {cs : List Char} (hlen : cs.length ≤ 8) (hdigits : ∀ c ∈ cs, c ∈ hexChars) :
    cs.foldl (fun acc c => acc * 16 + hexCharValue c) 0 < 2 ^ 32 :=
  calc cs.foldl (fun acc c => acc * 16 + hexCharValue c) 0
      < (0 + 1) * 16 ^ cs.length := foldl_digits_lt (fun c hc => hexCharValue_lt_of_mem (hdigits c hc)) 0
    _ = 16 ^ cs.length := by rw [Nat.zero_add, Nat.one_mul]
    _ ≤ 16 ^ 8 := Nat.pow_le_pow_right (by decide) hlen
    _ = 2 ^ 32 := by decide

/-- A remainder that is too long, or that has a character other than a hex digit, is refused (R182, R184, R186). -/
theorem normalizeHex_error {token : String} {cs : List Char} (hstrip : stripHexPrefix token.toList = cs)
    (hbad : ¬ (cs.length ≤ 8 ∧ ∀ c ∈ cs, c ∈ hexChars)) : normalizeHex token = .error .invalidHex := by
  simp only [normalizeHex, hstrip, length_padHex_eq_iff, readDigits_padHex]
  split
  next hlen =>
    have hchar : ¬ ∀ c ∈ cs, c ∈ hexChars := fun hall => hbad ⟨hlen, hall⟩
    obtain ⟨c, hc, hno⟩ := by simpa only [not_forall, exists_prop] using hchar
    rw [readDigits_eq_none (radix := .hex) (hexDigitValue_eq_none hno) hc]
  next => rfl

/-- Settles O53: the remainder is what the prefix rule leaves, and it is read exactly when it is at most eight hex
digits. -/
theorem hexTokensAcceptedExactly : Obligations.HexTokensAcceptedExactly := by
  intro token
  have hstrip := stripHexPrefix_eq token.toList
  refine ⟨fun ⟨hlen, hdigits⟩ => ⟨_, normalizeHex_of_hexChars hstrip hlen hdigits, ?_⟩, normalizeHex_error hstrip⟩
  exact toNat_ofNat_of_lt (hexValue_lt hlen hdigits)

/-- Settles O54: with the prefix and without it, the same digits are left to read. -/
theorem hexTokenPrefixIsOptional : Obligations.HexTokenPrefixIsOptional := by
  intro h hlen hdigits
  have hplain : stripHexPrefix h.toList = h.toList := stripHexPrefix_of_hexChars hdigits
  have hprefixed : stripHexPrefix ("0x" ++ h).toList = h.toList := by rw [String.toList_append]; rfl
  have haccepted := normalizeHex_of_hexChars hplain hlen.le hdigits
  exact ⟨(normalizeHex_of_hexChars hprefixed hlen.le hdigits).trans haccepted.symm, _, haccepted⟩

/-! ### Binary mode -/

/-- A string of 0 and 1 is read as its value in base 2 (R183). -/
theorem readDigits_binaryChars {cs : List Char} (hdigits : ∀ c ∈ cs, c = '0' ∨ c = '1') :
    readDigits .binary 0 cs = some (cs.foldl (fun acc c => acc * 2 + binaryCharValue c) 0) :=
  readDigits_eq_foldl (radix := .binary) (fun c hc => binaryDigitValue_of_mem (hdigits c hc)) 0

theorem normalizeBinary_empty : normalizeBinary "" = .error .invalidBinary := rfl

/-- A token that is not empty and has a value is accepted exactly when the value fits a word (R183, R184). -/
theorem normalizeBinary_of_readDigits {token : String} {n : Nat} (hne : token ≠ "")
    (h : readDigits .binary 0 token.toList = some n) :
    normalizeBinary token = if n < 2 ^ 32 then .ok (BitVec.ofNat 32 n) else .error .invalidBinary := by
  rw [normalizeBinary, if_neg (mt String.toList_eq_nil_iff.mp hne), h]

/-- A token with a character other than 0 and 1 is refused (R183, R186). -/
theorem normalizeBinary_of_bad_char {token : String} {c : Char} (hc : c ∈ token.toList) (hno : ¬ (c = '0' ∨ c = '1')) :
    normalizeBinary token = .error .invalidBinary := by
  rw [normalizeBinary, if_neg (List.ne_nil_of_mem hc),
    readDigits_eq_none (radix := .binary) (binaryDigitValue_eq_none hno) hc]

/-- Settles O56: the empty token has no value, another one is read exactly when its characters are 0 and 1, and its
value must fit a word. -/
theorem binaryTokensAcceptedExactly : Obligations.BinaryTokensAcceptedExactly := by
  intro token
  refine ⟨fun ⟨hne, hdigits, hlt⟩ => ⟨_, ?_, toNat_ofNat_of_lt hlt⟩, fun hbad => ?_⟩
  · rw [normalizeBinary_of_readDigits hne (readDigits_binaryChars hdigits)]
    exact if_pos hlt
  · by_cases hne : token = ""
    · rw [hne, normalizeBinary_empty]
    by_cases hdigits : ∀ c ∈ token.toList, c = '0' ∨ c = '1'
    · rw [normalizeBinary_of_readDigits hne (readDigits_binaryChars hdigits)]
      exact if_neg fun hlt => hbad ⟨hne, hdigits, hlt⟩
    · obtain ⟨c, hc, hno⟩ := by simpa only [not_forall, exists_prop] using hdigits
      exact normalizeBinary_of_bad_char hc hno

end Sys2Proof.Machine

/-! ## The tokens as requests -/

namespace Sys2Proof.Machine

/-- A token that hex mode gives no word is refused with the error of its mode (R187). -/
theorem normalizeHex_eq_error {token : String} (h : ∀ w, normalizeHex token ≠ .ok w) :
    normalizeHex token = .error .invalidHex := by
  obtain ⟨hgood, hbad⟩ := hexTokensAcceptedExactly token
  refine hbad fun hg => ?_
  obtain ⟨w, hw, -⟩ := hgood hg
  exact h w hw

/-- A token that binary mode gives no word is refused with the error of its mode (R187). -/
theorem normalizeBinary_eq_error {token : String} (h : ∀ w, normalizeBinary token ≠ .ok w) :
    normalizeBinary token = .error .invalidBinary := by
  obtain ⟨hgood, hbad⟩ := binaryTokensAcceptedExactly token
  refine hbad fun hg => ?_
  obtain ⟨w, hw, -⟩ := hgood hg
  exact h w hw

/-- With well-formed tables, a step answers the request put first and leaves the rest. -/
theorem step_withRequests_cons {s : State} (hwf : tablesWf s.fs s.pt = true) (q : Request) (rest : List Request) :
    step (s.withRequests (q :: rest)) = .next ((s.withRequests rest).respond (answer s.fs s.pt q)) :=
  step_of_requests_cons hwf rfl

/-- A request enters a step only through its word or its error (R189). -/
theorem step_congr_requestWord {q q' : Request} (h : requestWord q = requestWord q') (s : State)
    (rest : List Request) :
    step (s.withRequests (q :: rest)) = step (s.withRequests (q' :: rest)) := by
  have hanswer : answer s.fs s.pt q = answer s.fs s.pt q' := by rw [answer, answer, h]
  cases hwf : tablesWf s.fs s.pt with
  | false =>
    have hrefused (qs : List Request) : step (s.withRequests qs) = .refused .illFormedTables :=
      step_of_illFormed hwf
    rw [hrefused, hrefused]
  | true => rw [step_withRequests_cons hwf, step_withRequests_cons hwf, hanswer]

/-- Settles O57: an accepted token has the word request's word, and a rejected one is answered by its mode's error. -/
theorem tokensAreServedAsTheirWords : Obligations.TokensAreServedAsTheirWords := by
  refine ⟨fun s token w rest => ⟨fun h => ?_, fun h => ?_⟩, fun s token rest hwf => ⟨fun h => ?_, fun h => ?_⟩,
    fun _ => rfl, rfl, rfl⟩
  · exact step_congr_requestWord (q := .hexToken token) (q' := .word w) h s rest
  · exact step_congr_requestWord (q := .binaryToken token) (q' := .word w) h s rest
  · have hanswer : answer s.fs s.pt (.hexToken token) = .invalidHex := by
      rw [answer, requestWord, normalizeHex_eq_error h]
    exact hanswer ▸ step_withRequests_cons hwf (.hexToken token) rest
  · have hanswer : answer s.fs s.pt (.binaryToken token) = .invalidBinary := by
      rw [answer, requestWord, normalizeBinary_eq_error h]
    exact hanswer ▸ step_withRequests_cons hwf (.binaryToken token) rest

end Sys2Proof.Machine
